-- ==== Sys2Proof/Word.lean ====
section
/-! DEFINITION. The one datum of the protocol: an unsigned byte (00_scope.md R9). -/

namespace Sys2Proof

/-- R9: every operand, payload byte, frame byte and output byte is an unsigned 8-bit value. -/
abbrev Byte := BitVec 8

/-- A line of text or one of its words, as the front end reads it (43_front_end.md R191). -/
abbrev Text := List Char

end Sys2Proof
end

