-- ==== Sys2Proof/Config.lean ====
section
/-! DEFINITION. The parameters of 00_scope.md R8: those of the block, of the transport and of the front end. -/

namespace Sys2Proof

/-- R2, R23: the two encoding profiles, the two values of `CFG.PROFILE`. -/
inductive Profile where
  | legacy
  | framed
  deriving DecidableEq, Repr

/-- R8: `COLOR_ARGC` is 4 or 5 (90_conflicts.md C3). -/
inductive ColorArgc where
  | four
  | five
  deriving DecidableEq, Repr

/-- R8: the number a `COLOR_ARGC` stands for. -/
def ColorArgc.count : ColorArgc → Nat
  | .four => 4
  | .five => 5

/-- R8: the parameters of the block, fixed for a run (R22). `legacyMaxPayload = none` is `unbounded`. -/
structure Params where
  colorArgc        : ColorArgc
  profileAtReset   : Profile
  legacyMaxPayload : Option Nat
  deriving DecidableEq, Repr

/-- R8: the defaults of the three parameters (decisions D5, D6, D9). -/
def Params.default : Params :=
  { colorArgc := .four, profileAtReset := .framed, legacyMaxPayload := none }

/-- 41_frame_wrapping.md R145: a finite `LEGACY_MAX_PAYLOAD` is at least 255. -/
abbrev Params.wf (P : Params) : Prop := ∀ n ∈ P.legacyMaxPayload, 255 ≤ n

/-- R8: `FRAMED_MAX_PAYLOAD`, fixed. -/
def framedMaxPayload : Nat := 255

/-- R8: `MAGIC`, fixed, first byte first (R52). -/
def magic : List Byte := [0x55, 0x4D, 0x58]

/-! ### Transport parameters: no rule of the block depends on them (R8, 20_memory.md R54) -/

/-- Decision D27, 20_memory.md R54: which bit of a byte the transport shifts onto the line first. -/
inductive BitOrder where
  | leastSignificantFirst
  | mostSignificantFirst
  deriving DecidableEq, Repr, Inhabited

/-- R8, decision D27: what a `LINE_FORMAT` says: data, parity and stop bits, and the bit order. -/
structure LineFormat where
  dataBits   : Nat
  parityBits : Nat
  stopBits   : Nat
  bitOrder   : BitOrder
  deriving DecidableEq, Repr, Inhabited

/-- R8, decision D27: `LINE_FORMAT` is OPEN, so it is an uninterpreted constant (log 18). -/
opaque Config.lineFormat : LineFormat

/-- R8, decision D27: `BAUD_LEGACY`, "the port default", is OPEN (log 18). -/
opaque Config.baudLegacy : Nat

/-- R8: `BAUD_FRAMED`, fixed. -/
def Config.baudFramed : Nat := 9600

/-- 70_reset_and_hazards.md R244: the baud rate the transport is opened with under each profile. -/
def Config.baud : Profile → Nat
  | .legacy => Config.baudLegacy
  | .framed => Config.baudFramed

/-! ### Front-end parameters (43_front_end.md) -/

/-- The ten commands of 30_encoding.md R75, as `CMD_NAME` names them (R8, R87). -/
inductive CmdKind where
  | setMode | writeText | setFont | setColor | animate
  | setPixel | setRow | clear | outputEnable | outputDisable
  deriving DecidableEq, Repr

/-- R75: the ten commands in opcode order. -/
def CmdKind.all : List CmdKind :=
  [.setMode, .writeText, .setFont, .setColor, .animate,
   .setPixel, .setRow, .clear, .outputEnable, .outputDisable]

/-- R8, decision D31: what becomes of extra arguments; OPEN. -/
inductive ExtraArgs where
  | ignore
  | reject
  deriving DecidableEq, Repr

/-- R8, 43_front_end.md R194, decision D23: the default of `FONT_NAME_CASEFOLD`. -/
def defaultFontNameCasefold : Bool := false

/-- R8, decision D24: the defaults of `ANIM_NAME_BLINK` and `ANIM_NAME_SLIDE`, the spec's choice. -/
def defaultBlinkName : Text := ['b', 'l', 'i', 'n', 'k']
/-- R8, decision D24. -/
def defaultSlideName : Text := ['s', 'l', 'i', 'd', 'e']

/-- R8: the parameters of the front end, an argument of every function of Machine/FrontEnd.lean (log 16), with the
spec's default where it gives one; the others are OPEN.
`textWords` takes the words after a WriteText's `col` to the text and the words left over, or to `none` where
they do not make a text. -/
structure FrontEndParams where
  fontNameCasefold : Bool := defaultFontNameCasefold
  animNameBlink    : Text := defaultBlinkName
  animNameSlide    : Text := defaultSlideName
  otherName        : CmdKind → Text
  textWords        : List Text → Option (Text × List Text)
  extraArgs        : ExtraArgs

/-- 30_encoding.md R87: `CMD_NAME`; `CMD_NAME(SetColor) = "color"` is the one name that is known. -/
def FrontEndParams.cmdName (F : FrontEndParams) : CmdKind → Text
  | .setColor => ['c', 'o', 'l', 'o', 'r']
  | k => F.otherName k

end Sys2Proof
end

