-- ==== Sys2Proof/Syntax.lean ====
section
/-! DEFINITION. The commands (30_encoding.md R75) and the command descriptor that presents one (R83). -/

namespace Sys2Proof

/-- 30_encoding.md R75: one constructor per row of spec/opcode_table.json. The operands are bytes (R9), in the
order of the row. `setColor` carries all five fixed operand fields of the descriptor; its meaning uses the first
`COLOR_ARGC` of them (40_payload_commands.md R113; log 12). -/
inductive Instr where
  /-- R110 -/
  | setMode (mode : Byte)
  /-- R111 -/
  | writeText (col : Byte) (text : List Byte)
  /-- R112: `font` is the font code; 3 to 255 is an error of this command -/
  | setFont (col font : Byte)
  /-- R113 -/
  | setColor (o0 o1 o2 o3 o4 : Byte)
  /-- R114, kind 0 -/
  | animateNone (col : Byte)
  /-- R114, kind 1 -/
  | animateBlink (col period : Byte)
  /-- R114, kind 2 -/
  | animateSlide (col period distance : Byte)
  /-- R115 -/
  | setPixel (x y w h st : Byte)
  /-- R116 -/
  | setRow (values : List Byte)
  /-- R117 -/
  | clear
  /-- R118 -/
  | outputEnable
  /-- R119 -/
  | outputDisable
  deriving DecidableEq, Repr

/-- 30_encoding.md R83: the record that presents a command on the command channel. -/
structure Descriptor where
  op   : Byte
  a0   : Byte := 0
  a1   : Byte := 0
  a2   : Byte := 0
  a3   : Byte := 0
  a4   : Byte := 0
  data : List Byte := []
  deriving DecidableEq, Repr

/-- R75: the opcode of each command. -/
def Instr.opcode : Instr → Byte
  | .setMode _ => 1
  | .writeText _ _ => 2
  | .setFont _ _ => 3
  | .setColor _ _ _ _ _ => 4
  | .animateNone _ => 5
  | .animateBlink _ _ => 5
  | .animateSlide _ _ _ => 5
  | .setPixel _ _ _ _ _ => 6
  | .setRow _ => 7
  | .clear => 8
  | .outputEnable => 9
  | .outputDisable => 10

/-- R75: the payload length of each command. -/
def Instr.payloadLength (P : Params) : Instr → Nat
  | .setMode _ => 2
  | .writeText _ text => 2 + text.length
  | .setFont _ _ => 3
  | .setColor _ _ _ _ _ => 1 + P.colorArgc.count
  | .animateNone _ => 3
  | .animateBlink _ _ => 4
  | .animateSlide _ _ _ => 5
  | .setPixel _ _ _ _ _ => 6
  | .setRow values => 1 + values.length
  | .clear => 1
  | .outputEnable => 1
  | .outputDisable => 1

/-- 30_encoding.md R79: the commands that only the Framed profile has. -/
def Instr.framedOnly : Instr → Bool
  | .animateNone _ => true
  | .animateBlink _ _ => true
  | .animateSlide _ _ _ => true
  | .setMode _ => false
  | .writeText _ _ => false
  | .setFont _ _ => false
  | .setColor _ _ _ _ _ => false
  | .setPixel _ _ _ _ _ => false
  | .setRow _ => false
  | .clear => false
  | .outputEnable => false
  | .outputDisable => false

end Sys2Proof
end

