-- ==== Sys2Proof/WellFormed.lean ====
section
/-! DEFINITION. Which terms of `Instr` are legal Commands, and which of them a profile can send. -/

namespace Sys2Proof

/-- 30_encoding.md R77, R84: the font code is 0, 1 or 2. R113, R8: with `COLOR_ARGC = 4` a SetColor Command has
four operands, so the fifth field holds the 0 of an unused field (log 12). -/
def WellFormed (P : Params) : Instr → Bool
  | .setMode _ => true
  | .writeText _ _ => true
  | .setFont _ font => decide (font.toNat ≤ 2)
  | .setColor _ _ _ _ o4 =>
    match P.colorArgc with
    | .four => decide (o4 = 0)
    | .five => true
  | .animateNone _ => true
  | .animateBlink _ _ => true
  | .animateSlide _ _ _ => true
  | .setPixel _ _ _ _ _ => true
  | .setRow _ => true
  | .clear => true
  | .outputEnable => true
  | .outputDisable => true

/-- 41_frame_wrapping.md R144, R145: a payload of `n` bytes is not too long under the profile. -/
def Params.fits (P : Params) : Profile → Nat → Bool
  | .framed, n => decide (n ≤ framedMaxPayload)
  | .legacy, n =>
    match P.legacyMaxPayload with
    | none => true
    | some m => decide (n ≤ m)

/-- R79, R144, R145: a well-formed command that the profile can send. -/
def Sendable (P : Params) (p : Profile) (i : Instr) : Bool :=
  WellFormed P i && (!i.framedOnly || decide (p = .framed)) && P.fits p (i.payloadLength P)

end Sys2Proof
end

