-- ==== Sys2Proof/Decode.lean ====
section
/-! DEFINITION. The decoder of the block's input encoding (30_encoding.md part 2), the encoder and decoder of the
payloads and frames (part 1), and the reading of the opcode table's words. -/

namespace Sys2Proof

/-- Why a descriptor presents no command, by name. -/
inductive DescriptorError where
  /-- 40_payload_commands.md R120: opcode 0 or 11 to 255 -/
  | badOpcode (op : Byte)
  /-- R114: opcode 5 with a kind of 3 to 255 -/
  | badKind (kind : Byte)
  deriving DecidableEq, Repr

/-- Why bytes are no payload, by name. -/
inductive PayloadError where
  /-- 30_encoding.md R70: every payload holds at least its opcode -/
  | empty
  /-- R80: opcodes 0 and 11 to 255 are never on the line -/
  | badOpcode (op : Byte)
  /-- R80: kinds 3 to 255 are never on the line -/
  | badKind (kind : Byte)
  /-- R80: font codes 3 to 255 are never on the line -/
  | badFont (font : Byte)
  /-- R75: a payload of another length than its opcode (and kind) has -/
  | badLength (op : Byte)
  deriving DecidableEq, Repr

/-! ### The command descriptor -/

/-- 30_encoding.md R84: the command a descriptor presents. Fields its row does not name are ignored. A font code
above 2 decodes: the error is SetFont's own (R112). -/
def decodeDescriptor (d : Descriptor) : Except DescriptorError Instr :=
  match d.op.toNat with
  | 1 => .ok (.setMode d.a0)
  | 2 => .ok (.writeText d.a0 d.data)
  | 3 => .ok (.setFont d.a0 d.a1)
  | 4 => .ok (.setColor d.a0 d.a1 d.a2 d.a3 d.a4)
  | 5 =>
    match d.a1.toNat with
    | 0 => .ok (.animateNone d.a0)
    | 1 => .ok (.animateBlink d.a0 d.a2)
    | 2 => .ok (.animateSlide d.a0 d.a2 d.a3)
    | _ => .error (.badKind d.a1)
  | 6 => .ok (.setPixel d.a0 d.a1 d.a2 d.a3 d.a4)
  | 7 => .ok (.setRow d.data)
  | 8 => .ok .clear
  | 9 => .ok .outputEnable
  | 10 => .ok .outputDisable
  | _ => .error (.badOpcode d.op)

/-- 30_encoding.md R84: the descriptor that presents a command, its unused fields 0. -/
def encodeDescriptor : Instr → Descriptor
  | .setMode mode => { op := 1, a0 := mode }
  | .writeText col text => { op := 2, a0 := col, data := text }
  | .setFont col font => { op := 3, a0 := col, a1 := font }
  | .setColor o0 o1 o2 o3 o4 => { op := 4, a0 := o0, a1 := o1, a2 := o2, a3 := o3, a4 := o4 }
  | .animateNone col => { op := 5, a0 := col, a1 := 0 }
  | .animateBlink col period => { op := 5, a0 := col, a1 := 1, a2 := period }
  | .animateSlide col period distance => { op := 5, a0 := col, a1 := 2, a2 := period, a3 := distance }
  | .setPixel x y w h st => { op := 6, a0 := x, a1 := y, a2 := w, a3 := h, a4 := st }
  | .setRow values => { op := 7, data := values }
  | .clear => { op := 8 }
  | .outputEnable => { op := 9 }
  | .outputDisable => { op := 10 }

/-! ### The payload -/

/-- 30_encoding.md R75: the payload bytes of a command, row by row. -/
def encode (P : Params) : Instr → List Byte
  | .setMode mode => [0x01, mode]
  | .writeText col text => 0x02 :: col :: text
  | .setFont col font => [0x03, col, font]
  | .setColor o0 o1 o2 o3 o4 =>
    match P.colorArgc with
    | .four => [0x04, o0, o1, o2, o3]
    | .five => [0x04, o0, o1, o2, o3, o4]
  | .animateNone col => [0x05, col, 0x00]
  | .animateBlink col period => [0x05, col, 0x01, period]
  | .animateSlide col period distance => [0x05, col, 0x02, period, distance]
  | .setPixel x y w h st => [0x06, x, y, w, h, st]
  | .setRow values => 0x07 :: values
  | .clear => [0x08]
  | .outputEnable => [0x09]
  | .outputDisable => [0x0A]

/-- The operands of an opcode-5 payload: `col`, the kind and what the kind adds (R78). -/
def decodeAnimate : List Byte → Except PayloadError Instr
  | col :: kind :: more =>
    match kind.toNat, more with
    | 0, [] => .ok (.animateNone col)
    | 1, [period] => .ok (.animateBlink col period)
    | 2, [period, distance] => .ok (.animateSlide col period distance)
    | k, _ => if k ≤ 2 then .error (.badLength 5) else .error (.badKind kind)
  | _ => .error (.badLength 5)

/-- The operands of an opcode-4 payload, exactly `COLOR_ARGC` of them (R75). -/
def decodeColor : ColorArgc → List Byte → Except PayloadError Instr
  | .four, [o0, o1, o2, o3] => .ok (.setColor o0 o1 o2 o3 0)
  | .five, [o0, o1, o2, o3, o4] => .ok (.setColor o0 o1 o2 o3 o4)
  | _, _ => .error (.badLength 4)

/-- The operands of an opcode-3 payload: `col` and a font code of 0, 1 or 2 (R77). -/
def decodeFont : List Byte → Except PayloadError Instr
  | [col, font] => if font.toNat ≤ 2 then .ok (.setFont col font) else .error (.badFont font)
  | _ => .error (.badLength 3)

/-- 30_encoding.md R82: the Command of a delimited payload, for any bytes; the opcodes, font codes and kind codes that
R80 says are never emitted are rejected by name (log 20). A payload has no profile (R140): see `decodeFrame`. -/
def decodePayload (P : Params) : List Byte → Except PayloadError Instr
  | [] => .error .empty
  | op :: operands =>
    match op.toNat with
    | 1 => match operands with
      | [mode] => .ok (.setMode mode)
      | _ => .error (.badLength op)
    | 2 => match operands with
      | col :: text => .ok (.writeText col text)
      | _ => .error (.badLength op)
    | 3 => decodeFont operands
    | 4 => decodeColor P.colorArgc operands
    | 5 => decodeAnimate operands
    | 6 => match operands with
      | [x, y, w, h, st] => .ok (.setPixel x y w h st)
      | _ => .error (.badLength op)
    | 7 => .ok (.setRow operands)
    | 8 => match operands with
      | [] => .ok .clear
      | _ => .error (.badLength op)
    | 9 => match operands with
      | [] => .ok .outputEnable
      | _ => .error (.badLength op)
    | 10 => match operands with
      | [] => .ok .outputDisable
      | _ => .error (.badLength op)
    | _ => .error (.badOpcode op)

/-! ### The frame -/

/-- 41_frame_wrapping.md R141, R142: the frame of a payload under a profile. The length byte is `len(P)` itself
wherever a frame is formed, since a longer payload is turned away first (R150). -/
def wrap : Profile → List Byte → List Byte
  | .legacy, payload => payload
  | .framed, payload => [0x55, 0x4D, 0x58, BitVec.ofNat 8 payload.length] ++ payload

/-- 30_encoding.md R81: a Framed receiver at the start of a frame reads the length byte and takes that many
payload bytes: the payload and the rest of the stream. A zero length byte is never sent (R80). -/
def readFramed : List Byte → Option (List Byte × List Byte)
  | m0 :: m1 :: m2 :: len :: rest =>
    if [m0, m1, m2] = magic ∧ len.toNat ≠ 0 ∧ len.toNat ≤ rest.length then
      some (rest.take len.toNat, rest.drop len.toNat)
    else none
  | _ => none

/-- The Command of one whole frame under a profile (R71, R72, R82). A Legacy frame with opcode 5 is never emitted and has
no meaning (R80), so none is read from it. DESIGN CHOICE (log 20): what a receiver does with bytes that are never emitted
the spec leaves open. -/
def decodeFrame (P : Params) : Profile → List Byte → Option Instr
  | .legacy, bytes =>
    match decodePayload P bytes with
    | .ok i => if i.framedOnly then none else some i
    | .error _ => none
  | .framed, bytes =>
    match readFramed bytes with
    | some (payload, []) => (decodePayload P payload).toOption
    | _ => none

/-! ### The words of the opcode table -/

/-- The bytes of an `nbits`-bit word of spec/opcode_table.json, payload byte 0 first. The table reads the leading
payload bytes as one big-endian integer (its rows' "note"), so byte 0 is the most significant (log 11). -/
def tableBytes (nbits w : Nat) : List Byte :=
  go (nbits / 8)
where
  go : Nat → List Byte
    | 0 => []
    | k + 1 => BitVec.ofNat 8 (w / 256 ^ k) :: go k

/-- 30_encoding.md R84 with R75: leading payload bytes laid into the fields of a descriptor; absent operand bytes
are 0 and an absent text or row is empty (log 11). -/
def descriptorOfBytes (bytes : List Byte) : Descriptor :=
  let op := bytes.getD 0 0
  match op.toNat with
  | 2 => { op := op, a0 := bytes.getD 1 0, data := bytes.drop 2 }
  | 7 => { op := op, data := bytes.drop 1 }
  | _ => { op := op, a0 := bytes.getD 1 0, a1 := bytes.getD 2 0, a2 := bytes.getD 3 0,
           a3 := bytes.getD 4 0, a4 := bytes.getD 5 0 }

/-- The instruction the block's decoder reads from a word of the opcode table (log 11). -/
def decodeTableWord (nbits w : Nat) : Option Instr :=
  (decodeDescriptor (descriptorOfBytes (tableBytes nbits w))).toOption

end Sys2Proof
end

