-- ==== Sys2Proof/Machine/State.lean ====
section
/-! DEFINITION. The state of the block (10_state.md R22), its environment's inputs, the record of a run, and reset. -/

namespace Sys2Proof.Machine

/-- 10_state.md R38: one access on the register channel; `reg_write` is which of the two it is. -/
inductive RegReq where
  | read (addr : Byte)
  | write (addr data : Byte)
  deriving DecidableEq, Repr

/-- 10_state.md R36 to R39, 70_reset_and_hazards.md R240: what the environment presents at one step. `cmd`, `reg`
and `close` are present where their valid bit is 1. The default is: no request, `out_ready = 0`, no reset. -/
structure Inputs where
  rst      : Bool := false
  cmd      : Option Descriptor := none
  reg      : Option RegReq := none
  close    : Bool := false
  outReady : Bool := false
  deriving DecidableEq, Repr

/-- 10_state.md R37, R42: one transfer on the output byte channel. -/
structure OutTransfer where
  byte : Byte
  last : Bool
  deriving DecidableEq, Repr

/-- 10_state.md R42, 42_controller.md R169: a register read that was taken, with `reg_rdata`. -/
structure RegRead where
  addr  : Byte
  rdata : Byte
  deriving DecidableEq, Repr

/-- 00_scope.md R12: what became of a request in a step. -/
inductive Handshake where
  /-- nothing was presented on the channel -/
  | absent
  /-- the transfer happened -/
  | taken
  /-- the requester waits and nothing changes -/
  | held
  /-- the block is CLOSED: the request is never accepted until reset -/
  | refused
  deriving DecidableEq, Repr

/-- R12: what the last step did with each request presented to it. -/
structure Report where
  cmd   : Handshake := .absent
  write : Handshake := .absent
  read  : Handshake := .absent
  close : Handshake := .absent
  deriving DecidableEq, Repr

/-- 10_state.md R22, and the model's own fields: the run's parameters, the environment's coming inputs and the
record of the run (R42). -/
structure State where
  /-- R22, R24: `CFG.PROFILE` -/
  profile : Profile
  /-- R22, R27: `STATUS.BUSY` -/
  busy    : Bool
  /-- R22, R28: `STATUS.CLOSED` -/
  closed  : Bool
  /-- R22, R29: `STATUS.ERR` -/
  err     : BitVec 3
  /-- R22, R31: the frame buffer `FB` -/
  fb      : List Byte
  /-- R22, R32: `FLEN` -/
  flen    : Nat
  /-- R22, R33: `IDX` -/
  idx     : Nat
  /-- the model's own: the parameters, fixed for the run (00_scope.md R8; log 3) -/
  params  : Params
  /-- the model's own: what is presented at the coming steps, the next one first (R7; log 1) -/
  inputs  : List Inputs
  /-- the model's own: the output trace, oldest first (R42; log 4) -/
  trace   : List OutTransfer
  /-- the model's own: the register reads taken, oldest first (R42; log 4) -/
  reads   : List RegRead
  /-- the model's own: what the last step did with its requests (R12; log 4) -/
  report  : Report
  deriving DecidableEq, Repr

/-- Why a step stops. -/
inductive Fault where
  /-- raised by EMIT alone, where `BUSY = 1` and `IDX` is no index of `FB`: 10_state.md R34 rules such a state out.
  Safe: the model stops where the spec gives no byte (log 9). -/
  | noFrameByte
  deriving DecidableEq, Repr

/-- Why an instruction has no meaning. -/
inductive Refusal where
  /-- raised by an arm of `exec` that has no meaning yet; no arm is such. Safe. -/
  | notModelled (mnemonic : String)
  deriving DecidableEq, Repr

/-- 10_state.md R41, 70_reset_and_hazards.md R241: the state after reset, under the default parameters (R8), with
nothing presented and nothing recorded yet. -/
def State.reset : State :=
  { profile := Params.default.profileAtReset
    busy := false
    closed := false
    err := 0
    fb := []
    flen := 0
    idx := 0
    params := Params.default
    inputs := []
    trace := []
    reads := []
    report := {} }

end Sys2Proof.Machine
end

