-- ==== Sys2Proof/Machine/Flags.lean ====
section
/-! DEFINITION. The fields of `CFG` and `STATUS`, the error codes, and the ready and valid signals derived from them. -/

namespace Sys2Proof.Machine

/-- 60_exceptions.md R210: the error outcomes of an ACCEPT. -/
inductive ErrCode where
  | badOpcode
  | profile
  | badOperand
  | tooLong
  deriving DecidableEq, Repr

/-- R210: the code 0, `NONE`. -/
def errNone : BitVec 3 := 0

/-- R210: the code `STATUS.ERR` records for an error. -/
def ErrCode.code : ErrCode → BitVec 3
  | .badOpcode => 1
  | .profile => 2
  | .badOperand => 3
  | .tooLong => 4

/-- 10_state.md R23: the value of the bit `CFG.PROFILE`. -/
def profileBit : Profile → Bool
  | .legacy => false
  | .framed => true

/-- R23: the profile a written bit selects; every value is legal (R24). -/
def profileOfBit (b : Bool) : Profile := if b then .framed else .legacy

/-- 42_controller.md R169, address 0x0: `zext_8(CFG.PROFILE)`. -/
def State.cfgByte (s : State) : Byte := (BitVec.ofBool (profileBit s.profile)).setWidth 8

/-- R169, address 0x1: `zext_8(STATUS.ERR[2:0] ++ STATUS.CLOSED ++ STATUS.BUSY)`, most significant part first. -/
def State.statusByte (s : State) : Byte :=
  (s.err ++ BitVec.ofBool s.closed ++ BitVec.ofBool s.busy).setWidth 8

/-! ### Ports (10_state.md section 4) -/

/-- R40: `cmd_ready`; it does not depend on what is presented. -/
def State.cmdReady (s : State) : Bool := !s.busy && !s.closed

/-- R39: `close_ready`. -/
def State.closeReady (s : State) : Bool := !s.busy && !s.closed

/-- R38: `reg_ready`, always 1 for a read and the enable of R168 for a write (log 13). -/
def State.regReady (s : State) : RegReq → Bool
  | .read _ => true
  | .write _ _ => !s.busy && !s.closed

/-- R37: `out_valid`. -/
def State.outValid (s : State) : Bool := s.busy

/-- R37: `FB[IDX]` with `IDX = FLEN - 1`, where `FB` has that byte. -/
def State.frontByte (s : State) : Option OutTransfer :=
  (s.fb[s.idx]?).map fun b => { byte := b, last := decide (s.idx + 1 = s.flen) }

/-- R37: `out_byte` and `out_last`; no meaning while `out_valid = 0`. -/
def State.outPort (s : State) : Option OutTransfer := if s.outValid then s.frontByte else none

end Sys2Proof.Machine
end

