-- ==== Sys2Proof/Machine/Operands.lean ====
section
/-! DEFINITION. The operand forms: codes that are checked, the colour operands, the profile a command needs, and the
spec's payload function over descriptors (40_payload_commands.md R110 to R120). -/

namespace Sys2Proof.Machine

/-- R112: a SetFont payload carries a font code of 0, 1 or 2, else the command is `BAD_OPERAND`. -/
def checkFont (font : Byte) (payload : List Byte) : Except ErrCode (List Byte) :=
  if font.toNat > 2 then .error .badOperand else .ok payload

/-- R113, R198: the first `COLOR_ARGC` operand fields, in order. -/
def colorOperands (P : Params) (o0 o1 o2 o3 o4 : Byte) : List Byte :=
  [o0, o1, o2, o3, o4].take P.colorArgc.count

/-- 41_frame_wrapping.md R146: a command that only the Framed profile has is the error `PROFILE` under Legacy. -/
def needsFramed (p : Profile) (payload : List Byte) : Except ErrCode (List Byte) :=
  if p = .legacy then .error .profile else .ok payload

/-- 60_exceptions.md R212 with 41_frame_wrapping.md R143: the error code of a descriptor that presents no command.
A reserved Animate kind is `PROFILE` under Legacy, since that check comes first. -/
def descriptorError (p : Profile) : DescriptorError → ErrCode
  | .badOpcode _ => .badOpcode
  | .badKind _ => if p = .legacy then .profile else .badOperand

/-- 41_frame_wrapping.md R140: the spec's `payload(d)`, from the pseudocode of R110 to R120, over the descriptor. -/
def payload (P : Params) (d : Descriptor) : Except ErrCode (List Byte) :=
  match d.op.toNat with
  | 1 => .ok [0x01, d.a0]
  | 2 => .ok ([0x02, d.a0] ++ d.data)
  | 3 => if d.a1.toNat > 2 then .error .badOperand else .ok [0x03, d.a0, d.a1]
  | 4 =>
    if P.colorArgc = .four then .ok [0x04, d.a0, d.a1, d.a2, d.a3]
    else .ok [0x04, d.a0, d.a1, d.a2, d.a3, d.a4]
  | 5 =>
    match d.a1.toNat with
    | 0 => .ok [0x05, d.a0, 0x00]
    | 1 => .ok [0x05, d.a0, 0x01, d.a2]
    | 2 => .ok [0x05, d.a0, 0x02, d.a2, d.a3]
    | _ => .error .badOperand
  | 6 => .ok [0x06, d.a0, d.a1, d.a2, d.a3, d.a4]
  | 7 => .ok ([0x07] ++ d.data)
  | 8 => .ok [0x08]
  | 9 => .ok [0x09]
  | 10 => .ok [0x0A]
  | _ => .error .badOpcode

end Sys2Proof.Machine
end

