-- ==== Sys2Proof/Machine/Frame.lean ====
section
/-! DEFINITION. Profile wrapping with its length limits, and the spec's encode function (41_frame_wrapping.md). -/

namespace Sys2Proof.Machine

/-- R144, R145, R141, R142: the length check of the profile, then the wrapping, on a payload that may already be an
error. -/
def frameResult (P : Params) (p : Profile) : Except ErrCode (List Byte) → Except ErrCode (List Byte)
  | .error e => .error e
  | .ok payload => if P.fits p payload.length then .ok (wrap p payload) else .error .tooLong

/-- R143: the spec's `encode(d, p)`, check by check in its order. The machine's own path to a frame is `decodeDescriptor`
and `exec`; this function is what it must agree with. -/
def encodeFrame (P : Params) (d : Descriptor) (p : Profile) : Except ErrCode (List Byte) :=
  if d.op = 0 ∨ d.op.toNat > 10 then .error .badOpcode
  else if d.op = 5 ∧ p = .legacy then .error .profile
  else
    match payload P d with
    | .error e => .error e
    | .ok bytes =>
      if p = .framed ∧ bytes.length > framedMaxPayload then .error .tooLong
      else
        match p, P.legacyMaxPayload with
        | .legacy, some m => if bytes.length > m then .error .tooLong else .ok (wrap p bytes)
        | _, _ => .ok (wrap p bytes)

/-- 42_controller.md R165: a frame as it leaves on the output channel, `out_last` on its last byte alone. -/
def marked : List Byte → List OutTransfer
  | [] => []
  | [b] => [{ byte := b, last := true }]
  | b :: c :: rest => { byte := b, last := false } :: marked (c :: rest)

end Sys2Proof.Machine
end

