-- ==== Sys2Proof/Machine/Ops.lean ====
section
/-! DEFINITION. The controller's operations (42_controller.md): ACCEPT with its two outcomes, EMIT, CLOSE, register
access, reset, and the arbitration among requests. -/

namespace Sys2Proof.Machine

open Host (Outcome)

/-! ### ACCEPT -/

/-- R162, the `Ok(s)` case: the frame is queued whole and none of it is emitted yet. -/
def State.loadFrame (s : State) (frame : List Byte) : State :=
  { s with fb := frame, flen := frame.length, idx := 0, busy := true, err := errNone }

/-- 60_exceptions.md R213, R162, the `Err(e)` case: the code is recorded and nothing else changes. It is cleared by
the next ACCEPT (R214). -/
def State.takeError (s : State) (e : ErrCode) : State := { s with err := e.code }

/-- R162: what an ACCEPT leaves for a result of the encode function. -/
def State.takeResult (s : State) : Except ErrCode (List Byte) → State
  | .ok frame => s.loadFrame frame
  | .error e => s.takeError e

/-- R161, R162: a command whose payload is `r` is on the command channel. It is accepted where `cmd_ready = 1`; else
it is held or refused and nothing changes. -/
def presentPayload (r : Except ErrCode (List Byte)) (s : State) : Outcome State Fault Refusal :=
  if s.cmdReady then .next (s.takeResult (frameResult s.params s.profile r)) else .next s

/-- R162 for a descriptor that decodes to no command: its error, R120 and R114. -/
def presentError (e : DescriptorError) (s : State) : Outcome State Fault Refusal :=
  presentPayload (.error (descriptorError s.profile e)) s

/-! ### EMIT -/

/-- R164: one byte leaves, `IDX` advances, and `BUSY` falls with the last byte. -/
def State.emitByte (s : State) (t : OutTransfer) : State :=
  { s with trace := s.trace ++ [t], idx := s.idx + 1, busy := if s.idx + 1 = s.flen then false else s.busy }

/-- R164: EMIT. A state with no byte at `IDX` is no reachable state (10_state.md R34); there the model stops (log 9). -/
def emit (s : State) : Outcome State Fault Refusal :=
  match s.frontByte with
  | some t => .next (s.emitByte t)
  | none => .fault .noFrameByte

/-! ### CLOSE and the registers -/

/-- R167: CLOSE. -/
def State.takeClose (s : State) : State := { s with closed := true }

/-- R168: REGWRITE. `STATUS` is read-only and other addresses are unmapped (10_state.md R30). -/
def State.regWrite (s : State) (addr data : Byte) : State :=
  if addr = 0 then { s with profile := profileOfBit (data.getLsbD 0) } else s

/-- R169: REGREAD. -/
def State.regRead (s : State) (addr : Byte) : Byte :=
  match addr.toNat with
  | 0 => s.cfgByte
  | 1 => s.statusByte
  | _ => 0

/-! ### One step's requests -/

/-- 00_scope.md R7: what the environment presents at this step. Past the end of the list: nothing (log 1). -/
def State.presented (s : State) : Inputs := s.inputs.head?.getD {}

/-- The caller's request that a step takes. -/
inductive Grant where
  | command (d : Descriptor)
  | regWrite (addr data : Byte)
  | close
  | nothing
  deriving DecidableEq, Repr

/-- R161, R167, R168, R170: which request of an idle and open block is taken: the command first, then a register
write, then the close request. A busy or closed block takes none. -/
def State.grant (s : State) : Grant :=
  if s.busy || s.closed then .nothing
  else
    match s.presented.cmd, s.presented.reg, s.presented.close with
    | some d, _, _ => .command d
    | none, some (.write addr data), _ => .regWrite addr data
    | none, _, true => .close
    | none, _, false => .nothing

/-- 00_scope.md R12: a request that is not presented has no outcome. -/
def mark (presented : Bool) (h : Handshake) : Handshake := if presented then h else .absent

/-- R12, R161, R167, R168: what becomes of a request that is not taken: refused while CLOSED, else held. -/
def State.turnedAway (s : State) : Handshake := if s.closed then .refused else .held

/-- R38, R168: a register write is presented. -/
def Inputs.writes (i : Inputs) : Bool :=
  match i.reg with
  | some (.write _ _) => true
  | _ => false

/-- R38, R169: the address of the register read that is presented. -/
def Inputs.readAddr (i : Inputs) : Option Byte :=
  match i.reg with
  | some (.read addr) => some addr
  | _ => none

/-- R12: the outcome of every request of a step that is no reset. A register read is always taken (R169). -/
def State.reportOf (s : State) : Report :=
  let i := s.presented
  { cmd := mark i.cmd.isSome (match s.grant with | .command _ => .taken | _ => s.turnedAway)
    write := mark i.writes (match s.grant with | .regWrite _ _ => .taken | _ => s.turnedAway)
    read := mark i.readAddr.isSome .taken
    close := mark i.close (match s.grant with | .close => .taken | _ => s.turnedAway) }

/-- R169, R170: the read of this step, which returns the state from before the step (log 6). -/
def State.readLog (s : State) : List RegRead :=
  match s.presented.readAddr with
  | some addr => [{ addr := addr, rdata := s.regRead addr }]
  | none => []

/-- What every step that is no reset does beside its transfer: the inputs of this step are used up, a register read
is answered and the outcome of each request is recorded. The block itself is untouched. -/
def State.beginStep (s : State) : State :=
  { s with inputs := s.inputs.tail, reads := s.reads ++ s.readLog, report := s.reportOf }

/-- 70_reset_and_hazards.md R240 to R242: reset overrides every other step, so a request presented with it waits
(log 7). The bytes already emitted stay on the line; the parameters are the run's. -/
def State.takeReset (s : State) : State :=
  let i := s.presented
  { s with
    profile := s.params.profileAtReset
    busy := false
    closed := false
    err := errNone
    fb := []
    flen := 0
    idx := 0
    inputs := s.inputs.tail
    report :=
      { cmd := mark i.cmd.isSome .held
        write := mark i.writes .held
        read := mark i.readAddr.isSome .held
        close := mark i.close .held } }

/-- R164, R172: the output side of a step of a busy block: a byte leaves, or is held while `out_ready = 0`. -/
def drain (outReady : Bool) (s : State) : Outcome State Fault Refusal :=
  if outReady then emit s else .next s

end Sys2Proof.Machine
end

