-- ==== Sys2Proof/Machine/Animation.lean ====
section
/-! DEFINITION. Animate with its three kinds, which only the Framed profile has (40_payload_commands.md R114). -/

namespace Sys2Proof.Machine

open Host (Outcome)

/-- R114, kind None. -/
def execAnimateNone (col : Byte) (s : State) : Outcome State Fault Refusal :=
  presentPayload (needsFramed s.profile [0x05, col, 0x00]) s

/-- R114, kind Blink. -/
def execAnimateBlink (col period : Byte) (s : State) : Outcome State Fault Refusal :=
  presentPayload (needsFramed s.profile [0x05, col, 0x01, period]) s

/-- R114, kind Slide. -/
def execAnimateSlide (col period distance : Byte) (s : State) : Outcome State Fault Refusal :=
  presentPayload (needsFramed s.profile [0x05, col, 0x02, period, distance]) s

end Sys2Proof.Machine
end

