-- ==== Sys2Proof/Machine/Draw.lean ====
section
/-! DEFINITION. SetColor, SetPixel and SetRow (40_payload_commands.md R113, R115, R116). -/

namespace Sys2Proof.Machine

open Host (Outcome)

/-- R113: the first `COLOR_ARGC` operands, in order, with no meaning given to them. -/
def execSetColor (o0 o1 o2 o3 o4 : Byte) (s : State) : Outcome State Fault Refusal :=
  presentPayload (.ok (0x04 :: colorOperands s.params o0 o1 o2 o3 o4)) s

/-- R115: no operand is checked. -/
def execSetPixel (x y w h st : Byte) (s : State) : Outcome State Fault Refusal :=
  presentPayload (.ok [0x06, x, y, w, h, st]) s

/-- R116: a long row ends in `TOO_LONG`. -/
def execSetRow (values : List Byte) (s : State) : Outcome State Fault Refusal :=
  presentPayload (.ok ([0x07] ++ values)) s

end Sys2Proof.Machine
end

