-- ==== Sys2Proof/Machine/Mode.lean ====
section
/-! DEFINITION. SetMode, Clear, OutputEnable and OutputDisable (40_payload_commands.md R110, R117 to R119). -/

namespace Sys2Proof.Machine

open Host (Outcome)

/-- R110: every mode value is emitted unchanged. -/
def execSetMode (mode : Byte) (s : State) : Outcome State Fault Refusal :=
  presentPayload (.ok [0x01, mode]) s

/-- R117 -/
def execClear (s : State) : Outcome State Fault Refusal := presentPayload (.ok [0x08]) s

/-- R118 -/
def execOutputEnable (s : State) : Outcome State Fault Refusal := presentPayload (.ok [0x09]) s

/-- R119 -/
def execOutputDisable (s : State) : Outcome State Fault Refusal := presentPayload (.ok [0x0A]) s

end Sys2Proof.Machine
end

