-- ==== Sys2Proof/Machine/TextFont.lean ====
section
/-! DEFINITION. WriteText and SetFont (40_payload_commands.md R111, R112). -/

namespace Sys2Proof.Machine

open Host (Outcome)

/-- R111: the text bytes are copied, whatever their values; a long text ends in `TOO_LONG`. -/
def execWriteText (col : Byte) (text : List Byte) (s : State) : Outcome State Fault Refusal :=
  presentPayload (.ok ([0x02, col] ++ text)) s

/-- R112: a font code above 2 ends in `BAD_OPERAND`. -/
def execSetFont (col font : Byte) (s : State) : Outcome State Fault Refusal :=
  presentPayload (checkFont font [0x03, col, font]) s

end Sys2Proof.Machine
end

