-- ==== Sys2Proof/Machine/Dispatch.lean ====
section
/-! DEFINITION. One arm per command: the command `i` is on the command channel in the state `s`. -/

namespace Sys2Proof.Machine

def exec (i : Instr) (s : State) : Host.Outcome State Fault Refusal :=
  match i with
  | .setMode mode => Sys2Proof.Machine.execSetMode mode s
  | .writeText col text => Sys2Proof.Machine.execWriteText col text s
  | .setFont col font => Sys2Proof.Machine.execSetFont col font s
  | .setColor o0 o1 o2 o3 o4 => Sys2Proof.Machine.execSetColor o0 o1 o2 o3 o4 s
  | .animateNone col => Sys2Proof.Machine.execAnimateNone col s
  | .animateBlink col period => Sys2Proof.Machine.execAnimateBlink col period s
  | .animateSlide col period distance => Sys2Proof.Machine.execAnimateSlide col period distance s
  | .setPixel x y w h st => Sys2Proof.Machine.execSetPixel x y w h st s
  | .setRow values => Sys2Proof.Machine.execSetRow values s
  | .clear => Sys2Proof.Machine.execClear s
  | .outputEnable => Sys2Proof.Machine.execOutputEnable s
  | .outputDisable => Sys2Proof.Machine.execOutputDisable s

end Sys2Proof.Machine
end

