-- ==== Sys2Proof/Machine/Control.lean ====
section
/-! DEFINITION. A descriptor on the command channel runs the command it decodes to, and a step serves the request it
grants (42_controller.md R161 to R170). -/

namespace Sys2Proof.Machine

open Host (Outcome)

/-- 30_encoding.md R84, 42_controller.md R162: the presented descriptor is decoded and its command runs; a descriptor
that is no command ends in its error. -/
def presentCommand (d : Descriptor) (s : State) : Outcome State Fault Refusal :=
  match decodeDescriptor d with
  | .ok i => exec i s
  | .error e => presentError e s

/-- R162, R167, R168: the effect of the granted request. -/
def serve : Grant → State → Outcome State Fault Refusal
  | .command d, s => presentCommand d s
  | .regWrite addr data, s => .next (s.regWrite addr data)
  | .close, s => .next s.takeClose
  | .nothing, s => .next s

/-- R160, R164, R170: one step that is no reset. A busy block can only emit; an idle one serves the granted request. -/
def transfer (s : State) : Outcome State Fault Refusal :=
  if s.busy then drain s.presented.outReady s.beginStep else serve s.grant s.beginStep

/-- The inputs that present an opcode-table word's descriptor and nothing else (log 2, log 11). -/
def fetchInputs (nbits w : Nat) : Inputs := { cmd := some (descriptorOfBytes (tableBytes nbits w)) }

end Sys2Proof.Machine
end

