-- ==== Sys2Proof/Machine/Step.lean ====
section
/-! DEFINITION. One step of the block over the inputs of its environment (00_scope.md R7, R12). -/

namespace Sys2Proof.Machine

/-- 42_controller.md R160, 70_reset_and_hazards.md R240: reset where `rst` is asserted, else one transfer. -/
def step (s : State) : Host.Outcome State Fault Refusal :=
  if s.presented.rst then .next s.takeReset else transfer s

/-- The word's descriptor is presented at the next step (log 2). -/
def State.withFetchWord (s : State) (nbits w : Nat) : State :=
  { s with inputs := fetchInputs nbits w :: s.inputs }

end Sys2Proof.Machine
end

