-- ==== Sys2Proof/Machine/FrontEnd.lean ====
section
/-! DEFINITION. The command-construction boundary (43_front_end.md): one line of text to a descriptor, a close request
or a reported error. The block uses none of it; it is the contract of the block's caller. -/

namespace Sys2Proof.Machine

/-- 43_front_end.md R192, R193, R190, R197: why a line is turned away; the line is reported and the loop goes on. -/
inductive LineError where
  /-- R193: an argument is missing -/
  | missingArgument
  /-- R193: a numeric argument is no unsigned decimal numeral -/
  | notNumeric
  /-- R192: a numeric argument above 255 -/
  | outOfRange
  /-- R197: a text holds a character outside ASCII -/
  | nonAscii
  /-- R190: under Framed the payload would exceed 255 bytes -/
  | tooLong
  /-- R191, decision D31: extra arguments, where `EXTRA_ARGS` rejects them -/
  | extraArguments
  deriving DecidableEq, Repr

/-- What a line comes to (R193, R196, R199). -/
inductive LineResult where
  | present (d : Descriptor)
  | closeRequest
  | rejected (e : LineError)
  deriving DecidableEq, Repr

/-! ### Words and numbers -/

/-- R191: whitespace; the source names no characters (log 14). -/
def isBlank (c : Char) : Bool := c = ' ' || c = '\t' || c = '\r' || c = '\n'

/-- The words of a line, `word` being the characters of the word in progress, last first. -/
def wordsFrom (word : Text) : Text → List Text
  | [] => if word = [] then [] else [word.reverse]
  | c :: rest =>
    if isBlank c then
      (if word = [] then wordsFrom [] rest else word.reverse :: wordsFrom [] rest)
    else wordsFrom (c :: word) rest

/-- 30_encoding.md R86, R191: a line is split on whitespace into words. -/
def splitWords (line : Text) : List Text := wordsFrom [] line

/-- R192, decision D33: the value of a decimal digit. -/
def digitValue (c : Char) : Option Nat :=
  if 48 ≤ c.toNat ∧ c.toNat ≤ 57 then some (c.toNat - 48) else none

/-- The value of a numeral whose digits so far are worth `acc`. -/
def decimalFrom (acc : Nat) : Text → Option Nat
  | [] => some acc
  | c :: rest =>
    match digitValue c with
    | some v => decimalFrom (acc * 10 + v) rest
    | none => none

/-- R192, decision D33: the value of an unsigned decimal numeral (log 15). -/
def decimal (word : Text) : Option Nat := if word = [] then none else decimalFrom 0 word

/-- R192: a numeric argument; a value above 255 is an error and is never reduced modulo 256. -/
def numericArg (word : Text) : Except LineError Byte :=
  match decimal word with
  | none => .error .notNumeric
  | some n => if n ≤ 255 then .ok (BitVec.ofNat 8 n) else .error .outOfRange

/-- The first `n` arguments as numbers, and the words after them. -/
def numericArgs : Nat → List Text → Except LineError (List Byte × List Text)
  | 0, ws => .ok ([], ws)
  | _ + 1, [] => .error .missingArgument
  | n + 1, w :: ws => do
    let b ← numericArg w
    let (bs, rest) ← numericArgs n ws
    .ok (b :: bs, rest)

/-- All arguments as numbers (SetRow's values, R86). -/
def allNumeric : List Text → Except LineError (List Byte)
  | [] => .ok []
  | w :: ws => do
    let b ← numericArg w
    let bs ← allNumeric ws
    .ok (b :: bs)

/-! ### Names and text -/

/-- R194: the font code of a name; any other name falls back to 0. -/
def fontCode (F : FrontEndParams) (name : Text) : Byte :=
  let n := if F.fontNameCasefold then name.map Char.toLower else name
  if n = ['i', 'b', 'm'] then 2 else if n = ['p', 'r', 'o'] then 1 else 0

/-- R195: the kind code of a name; any other name falls back to 0. -/
def kindCode (F : FrontEndParams) (name : Text) : Byte :=
  if name = F.animNameBlink then 1 else if name = F.animNameSlide then 2 else 0

/-- R197: one byte for each character, ASCII only. -/
def textBytes : Text → Except LineError (List Byte)
  | [] => .ok []
  | c :: rest =>
    if c.toNat ≤ 127 then do
      let bs ← textBytes rest
      .ok (BitVec.ofNat 8 c.toNat :: bs)
    else .error .nonAscii

/-! ### Descriptors -/

/-- Numeric arguments in the order written, laid into `a0` onwards (30_encoding.md R84, R198). -/
def fixedDescriptor (op : Byte) (args : List Byte) : Descriptor :=
  { op := op, a0 := args.getD 0 0, a1 := args.getD 1 0, a2 := args.getD 2 0, a3 := args.getD 3 0, a4 := args.getD 4 0 }

/-- A command whose arguments are `n` numbers. -/
def fixedCommand (op : Byte) (n : Nat) (ws : List Text) : Except LineError (Descriptor × List Text) := do
  let (args, rest) ← numericArgs n ws
  .ok (fixedDescriptor op args, rest)

/-- R111, R191, R197: the column, then the words `TEXT_WORDS` makes the text of. -/
def textCommand (F : FrontEndParams) (ws : List Text) : Except LineError (Descriptor × List Text) := do
  let (args, more) ← numericArgs 1 ws
  match F.textWords more with
  | none => .error .missingArgument
  | some (text, rest) => do
    let bytes ← textBytes text
    .ok ({ op := 2, a0 := args.getD 0 0, data := bytes }, rest)

/-- R112, R194: the column and a font name. -/
def fontCommand (F : FrontEndParams) (ws : List Text) : Except LineError (Descriptor × List Text) := do
  let (args, more) ← numericArgs 1 ws
  match more with
  | [] => .error .missingArgument
  | name :: rest => .ok ({ op := 3, a0 := args.getD 0 0, a1 := fontCode F name }, rest)

/-- R114, R195: the column and a kind name, then the numbers the kind takes: its code says how many. -/
def animateCommand (F : FrontEndParams) (ws : List Text) : Except LineError (Descriptor × List Text) := do
  let (args, more) ← numericArgs 1 ws
  match more with
  | [] => .error .missingArgument
  | name :: more' => do
    let kind := kindCode F name
    let (operands, rest) ← numericArgs kind.toNat more'
    .ok ({ op := 5, a0 := args.getD 0 0, a1 := kind, a2 := operands.getD 0 0, a3 := operands.getD 1 0 }, rest)

/-- R116: every argument is a value. -/
def rowCommand (ws : List Text) : Except LineError (Descriptor × List Text) := do
  let values ← allNumeric ws
  .ok ({ op := 7, data := values }, [])

/-- R86, R198: the descriptor of a named command and the arguments left over. -/
def commandDescriptor (F : FrontEndParams) (P : Params) (k : CmdKind) (ws : List Text) :
    Except LineError (Descriptor × List Text) :=
  match k with
  | .setMode => fixedCommand 1 1 ws
  | .writeText => textCommand F ws
  | .setFont => fontCommand F ws
  | .setColor => fixedCommand 4 P.colorArgc.count ws
  | .animate => animateCommand F ws
  | .setPixel => fixedCommand 6 5 ws
  | .setRow => rowCommand ws
  | .clear => fixedCommand 8 0 ws
  | .outputEnable => fixedCommand 9 0 ws
  | .outputDisable => fixedCommand 10 0 ws

/-- R191, decision D31: arguments left over. -/
def checkExtra (F : FrontEndParams) (rest : List Text) (d : Descriptor) : Except LineError Descriptor :=
  match F.extraArgs, rest with
  | .reject, _ :: _ => .error .extraArguments
  | _, _ => .ok d

/-- R190: under Framed the caller checks that the payload will not exceed 255 bytes. -/
def checkLength (P : Params) (p : Profile) (d : Descriptor) : Except LineError Descriptor :=
  match p, payload P d with
  | .framed, .ok bytes => if bytes.length > framedMaxPayload then .error .tooLong else .ok d
  | _, _ => .ok d

/-- R190: the descriptor of a named command, every check of the contract made. R193 does not say which error of a line
with several is reported. DESIGN CHOICE (log 21): the arguments are read left to right and the first bad or missing one
is reported, then extra arguments, then the Framed length. -/
def buildDescriptor (F : FrontEndParams) (P : Params) (p : Profile) (k : CmdKind) (ws : List Text) :
    Except LineError Descriptor := do
  let (d, rest) ← commandDescriptor F P k ws
  let d ← checkExtra F rest d
  checkLength P p d

/-- R87: the command a name stands for, the first in opcode order if the names are not distinct (log 16). -/
def commandNamed (F : FrontEndParams) (name : Text) : Option CmdKind :=
  CmdKind.all.find? fun k => F.cmdName k = name

/-- R191, R196, R193: what one line comes to. A line with no word has no recognized name. -/
def readLine (F : FrontEndParams) (P : Params) (p : Profile) (line : Text) : LineResult :=
  match splitWords line with
  | [] => .closeRequest
  | name :: ws =>
    match commandNamed F name with
    | none => .closeRequest
    | some k =>
      match buildDescriptor F P p k ws with
      | .ok d => .present d
      | .error e => .rejected e

end Sys2Proof.Machine
end

