-- ==== Sys2Proof/Machine/Session.lean ====
section
/-! DEFINITION. The front end's loop driving the block (43_front_end.md R196, R199, R200): one command a line, each
carried to completion, between one opening and one close. -/

namespace Sys2Proof.Machine

open Host (Outcome)

/-- Where the loop stands (R199, R200). -/
inductive Phase where
  /-- the transport is opened, which for the block is reset (70_reset_and_hazards.md R243) -/
  | opening
  /-- the next line is read -/
  | reading
  /-- a descriptor is presented until the block takes it -/
  | presenting (d : Descriptor)
  /-- the frame in flight is being transmitted -/
  | draining
  /-- the close request is presented until the block takes it -/
  | closing
  /-- the connection is closed and the loop is left -/
  | left
  deriving DecidableEq, Repr

/-- The loop: the lines to come, where it stands, the errors reported so far, and the block. -/
structure Session where
  lines  : List Text
  phase  : Phase
  errors : List LineError
  block  : State
  deriving DecidableEq, Repr

/-- R200, 70_reset_and_hazards.md R244: startup, with these lines to come. The block may stand in any state: the loop's
first step resets it. -/
def Session.start (lines : List Text) (block : State) : Session :=
  { lines := lines, phase := .opening, errors := [], block := block }

/-- R200: the loop is left on another path than the close sentinel (an error, a process signal). An opened connection is
closed on every path, and once. -/
def Session.exit (w : Session) : Session :=
  match w.phase with
  | .opening => { w with phase := .left }
  | .left => w
  | .reading => { w with phase := .closing }
  | .presenting _ => { w with phase := .closing }
  | .draining => { w with phase := .closing }
  | .closing => w

/-- One step of the block with these inputs, and the loop's place after it (log 17). -/
def Session.drive (w : Session) (i : Inputs) (place : State → Phase) : Outcome Session Fault Refusal :=
  match step { w.block with inputs := [i] } with
  | .next t => .next { w with block := t, phase := place t }
  | .fault f => .fault f
  | .refused r => .refused r

/-- R193, R196, R199: the loop reads a line. With no line left it waits. -/
def Session.readNext (F : FrontEndParams) (w : Session) : Session :=
  match w.lines with
  | [] => w
  | line :: rest =>
    match readLine F w.block.params w.block.profile line with
    | .present d => { w with lines := rest, phase := .presenting d }
    | .closeRequest => { w with lines := rest, phase := .closing }
    | .rejected e => { w with lines := rest, errors := w.errors ++ [e] }

/-- One step of the loop; the transport's `out_ready` is its input. -/
def Session.step (F : FrontEndParams) (outReady : Bool) (w : Session) : Outcome Session Fault Refusal :=
  match w.phase with
  | .opening => w.drive { rst := true, outReady := outReady } fun _ => .reading
  | .reading => .next (w.readNext F)
  | .presenting d =>
    w.drive { cmd := some d, outReady := outReady } fun t =>
      if t.report.cmd = .taken then .draining else .presenting d
  | .draining =>
    w.drive { outReady := outReady } fun t => if t.busy then .draining else .reading
  | .closing =>
    w.drive { close := true, outReady := outReady } fun t => if t.report.close = .taken then .left else .closing
  | .left => .next w

end Sys2Proof.Machine
end

