-- ==== Sys2Proof/Safety.lean ====
section
/-! DEFINITION. What counts as a good state, a good run and a good caller, in the terms the claims use. -/

namespace Sys2Proof.Machine

open Host (Outcome)

/-- 10_state.md R34: the invariants of every reachable state. -/
structure Inv (s : State) : Prop where
  busy_iff    : s.busy = true ↔ s.idx < s.flen
  idx_le      : s.idx ≤ s.flen
  flen_eq     : s.flen = s.fb.length
  closed_idle : s.closed = true → s.busy = false
  err_le      : s.err.toNat ≤ 4

/-- The block is idle and open (60_exceptions.md R218): `cmd_ready = 1` (10_state.md R40). -/
def IdleOpen (s : State) : Prop := s.busy = false ∧ s.closed = false

/-- All state of the block (10_state.md R22) is the same in two states. -/
structure SameBlock (s t : State) : Prop where
  profile : t.profile = s.profile
  busy    : t.busy = s.busy
  closed  : t.closed = s.closed
  err     : t.err = s.err
  fb      : t.fb = s.fb
  flen    : t.flen = s.flen
  idx     : t.idx = s.idx

/-- 42_controller.md R162, the `Ok(s)` case, field by field: the state after the ACCEPT of a command with this
payload, whose frame is queued and of which no byte has left yet. -/
def State.queued (s : State) (payload : List Byte) : State :=
  { s with fb := wrap s.profile payload, flen := (wrap s.profile payload).length, idx := 0, busy := true, err := 0 }

/-- 41_frame_wrapping.md R144, R145: when a payload of `n` bytes is `TOO_LONG`. -/
def PayloadTooLong (P : Params) : Profile → Nat → Prop
  | .framed, n => 255 < n
  | .legacy, n => ∃ m, P.legacyMaxPayload = some m ∧ m < n

/-- 30_encoding.md R80 turned round: a buffer that holds nothing, or the frame of a command that some profile can
send. -/
def LegalBuffer (P : Params) (fb : List Byte) : Prop :=
  fb = [] ∨ ∃ p i, Sendable P p i = true ∧ fb = wrap p (encode P i)

/-- What has left the block and what is still to leave of the frame in flight (10_state.md R35). -/
def State.line (s : State) : List OutTransfer :=
  s.trace ++ (if s.busy then (marked s.fb).drop s.idx else [])

/-- The transfers the ACCEPT of this step, if there is one, adds to the line: its whole frame, or nothing where the
command ends in error (20_memory.md R58). -/
def State.committed (s : State) : List OutTransfer :=
  match s.grant with
  | .command d =>
    match encodeFrame s.params d s.profile with
    | .ok frame => marked frame
    | .error _ => []
  | _ => []

/-- `k` steps, stopping at a fault or a refusal. -/
def run : Nat → State → Outcome State Fault Refusal
  | 0, s => .next s
  | k + 1, s =>
    match step s with
    | .next t => run k t
    | .fault f => .fault f
    | .refused r => .refused r

/-- No reset is asserted in these steps. -/
def NoReset (ins : List Inputs) : Prop := ∀ i ∈ ins, i.rst = false

/-- 70_reset_and_hazards.md R251: how many of these steps have `out_ready = 1`. -/
def readyCount (ins : List Inputs) : Nat := ins.countP (·.outReady)

/-- 10_state.md R36, 70_reset_and_hazards.md R245, 00_scope.md R12: the caller's duty from one step to the next: a
request that was held waits, so it is presented again, unchanged. -/
def callerHolds (r : Report) (now after : Inputs) : Prop :=
  (r.cmd = .held → after.cmd = now.cmd) ∧ (r.write = .held → after.reg = now.reg) ∧
    (r.close = .held → after.close = now.close)

/-- A step in which the block takes no request and at most sends a byte (42_controller.md R161, R164, R172): what has
left and is still to leave is as before, and `IDX` advances where the block is busy and the transport ready. -/
structure OnlyEmits (ready : Bool) (s t : State) : Prop where
  line    : t.line = s.line
  idx     : t.idx = if s.busy = true ∧ ready = true then s.idx + 1 else s.idx
  busy    : t.busy = true ↔ t.idx < t.flen
  flen    : t.flen = s.flen
  profile : t.profile = s.profile
  closed  : t.closed = s.closed
  err     : t.err = s.err

/-! ### End of a run -/

/-- The caller presents no request at this step. Reset is no request of the caller (42_controller.md R160). -/
def Inputs.quiet (i : Inputs) : Bool := i.cmd.isNone && i.reg.isNone && !i.close

/-- What became of the access presented on the register channel. -/
def Report.reg (r : Report) : Option RegReq → Handshake
  | some (.write _ _) => r.write
  | some (.read _) => r.read
  | none => .absent

/-- What was presented at each of the next `k` steps and what became of it. -/
def history : Nat → State → List (Inputs × Report)
  | 0, _ => []
  | k + 1, s =>
    match step s with
    | .next t => (s.presented, t.report) :: history k t
    | .fault _ => []
    | .refused _ => []

/-- On one channel, every request that is held is presented again at the next step, unchanged, so that in the end it is
taken or refused. A request that is withdrawn, changed, or still waiting at the end is neither (log 22). -/
def settled {α : Type} [DecidableEq α] : List (Option α × Handshake) → Bool
  | [] => true
  | (request, outcome) :: later =>
    (outcome != .held || later.head?.map Prod.fst == some request) && settled later

/-- Every request presented on the three channels has been taken or refused. -/
def allSettled (h : List (Inputs × Report)) : Bool :=
  settled (h.map fun x => (x.1.cmd, x.2.cmd)) &&
  settled (h.map fun x => (x.1.reg, x.2.reg x.1.reg)) &&
  settled (h.map fun x => ((if x.1.close then some () else none), x.2.close))

/-- 42_controller.md R173: the run from `s` has ended after `k` steps: the caller has no further request, nothing is in
flight, and every presented request has been taken or refused. Its result is the trace of `t` and `t`. -/
structure RunEnds (s : State) (k : Nat) (t : State) : Prop where
  ran     : run k s = .next t
  idle    : t.busy = false
  noMore  : t.inputs.all Inputs.quiet = true
  settled : allSettled (history k s) = true

end Sys2Proof.Machine
end

