-- ==== Sys2Proof/Certificates/Slice0/Obligations.lean ====
section
/-! DEFINITION. The statements for the provers, from the numbered rules of spec/. -/

open Sys2Proof Sys2Proof.Machine
open Host (Outcome)

/-! ### What each command does, and on which states it completes (40_payload_commands.md) -/

/-- R110: SetMode queues the frame of `01 mode`, for every mode value, and nothing else of the state changes. -/
def Obligations.SetModeQueuesItsFrame : Prop :=
  ∀ (s : State) (mode : Byte), s.params.wf → IdleOpen s →
    exec (.setMode mode) s = .next (s.queued [0x01, mode]) ∧
    ∀ d : Descriptor, d.op = 1 → d.a0 = mode → presentCommand d s = exec (.setMode mode) s

/-- R111: WriteText queues the frame of `02 col text`, whatever the text bytes, unless the payload is too long
(under Framed: a text of 254 bytes or more; under Legacy: over a finite `LEGACY_MAX_PAYLOAD`); then only `ERR` changes. -/
def Obligations.WriteTextQueuesItsFrameOrIsTooLong : Prop :=
  ∀ (s : State) (col : Byte) (text : List Byte), IdleOpen s →
    (¬ PayloadTooLong s.params s.profile (2 + text.length) →
      exec (.writeText col text) s = .next (s.queued ([0x02, col] ++ text))) ∧
    (PayloadTooLong s.params s.profile (2 + text.length) →
      exec (.writeText col text) s = .next { s with err := 4 }) ∧
    (s.profile = .framed → (PayloadTooLong s.params s.profile (2 + text.length) ↔ 254 ≤ text.length)) ∧
    ∀ d : Descriptor, d.op = 2 → d.a0 = col → d.data = text →
      presentCommand d s = exec (.writeText col text) s

/-- R112: SetFont queues the frame of `03 col font` for the codes 0, 1 and 2; for 3 to 255 only `ERR` changes, to
`BAD_OPERAND`. -/
def Obligations.SetFontQueuesItsFrameOrIsBadOperand : Prop :=
  ∀ (s : State) (col font : Byte), s.params.wf → IdleOpen s →
    (font.toNat ≤ 2 → exec (.setFont col font) s = .next (s.queued [0x03, col, font])) ∧
    (2 < font.toNat → exec (.setFont col font) s = .next { s with err := 3 }) ∧
    ∀ d : Descriptor, d.op = 3 → d.a0 = col → d.a1 = font →
      presentCommand d s = exec (.setFont col font) s

/-- R113: SetColor queues the frame of `04` and the first `COLOR_ARGC` operand fields in order. -/
def Obligations.SetColorQueuesItsFrame : Prop :=
  ∀ (s : State) (o0 o1 o2 o3 o4 : Byte), s.params.wf → IdleOpen s →
    (s.params.colorArgc = .four →
      exec (.setColor o0 o1 o2 o3 o4) s = .next (s.queued [0x04, o0, o1, o2, o3])) ∧
    (s.params.colorArgc = .five →
      exec (.setColor o0 o1 o2 o3 o4) s = .next (s.queued [0x04, o0, o1, o2, o3, o4])) ∧
    ∀ d : Descriptor, d.op = 4 → d.a0 = o0 → d.a1 = o1 → d.a2 = o2 → d.a3 = o3 → d.a4 = o4 →
      presentCommand d s = exec (.setColor o0 o1 o2 o3 o4) s

/-- R114: under Framed the three kinds of Animate queue their frames. -/
def Obligations.AnimateQueuesItsFrameUnderFramed : Prop :=
  ∀ (s : State) (col period distance : Byte), IdleOpen s → s.profile = .framed →
    exec (.animateNone col) s = .next (s.queued [0x05, col, 0x00]) ∧
    exec (.animateBlink col period) s = .next (s.queued [0x05, col, 0x01, period]) ∧
    exec (.animateSlide col period distance) s = .next (s.queued [0x05, col, 0x02, period, distance])

/-- R114, R146: an Animate descriptor, kind by kind: kinds 0, 1 and 2 run the three commands, a kind of 3 to 255 is
`BAD_OPERAND` under Framed, and every kind is `PROFILE` under Legacy; an error changes `ERR` alone. -/
def Obligations.AnimateDescriptorByKindAndProfile : Prop :=
  ∀ (s : State) (d : Descriptor), IdleOpen s → d.op = 5 →
    (s.profile = .framed → d.a1 = 0 → presentCommand d s = .next (s.queued [0x05, d.a0, 0x00])) ∧
    (s.profile = .framed → d.a1 = 1 → presentCommand d s = .next (s.queued [0x05, d.a0, 0x01, d.a2])) ∧
    (s.profile = .framed → d.a1 = 2 → presentCommand d s = .next (s.queued [0x05, d.a0, 0x02, d.a2, d.a3])) ∧
    (s.profile = .framed → 2 < d.a1.toNat → presentCommand d s = .next { s with err := 3 }) ∧
    (s.profile = .legacy → presentCommand d s = .next { s with err := 2 })

/-- R115: SetPixel queues the frame of `06 x y w h state`, whatever its operands. -/
def Obligations.SetPixelQueuesItsFrame : Prop :=
  ∀ (s : State) (x y w h st : Byte), s.params.wf → IdleOpen s →
    exec (.setPixel x y w h st) s = .next (s.queued [0x06, x, y, w, h, st]) ∧
    ∀ d : Descriptor, d.op = 6 → d.a0 = x → d.a1 = y → d.a2 = w → d.a3 = h → d.a4 = st →
      presentCommand d s = exec (.setPixel x y w h st) s

/-- R116: SetRow queues the frame of `07 values`, unless the payload is too long (under Framed: 255 values or more);
then only `ERR` changes. -/
def Obligations.SetRowQueuesItsFrameOrIsTooLong : Prop :=
  ∀ (s : State) (values : List Byte), IdleOpen s →
    (¬ PayloadTooLong s.params s.profile (1 + values.length) →
      exec (.setRow values) s = .next (s.queued ([0x07] ++ values))) ∧
    (PayloadTooLong s.params s.profile (1 + values.length) →
      exec (.setRow values) s = .next { s with err := 4 }) ∧
    (s.profile = .framed → (PayloadTooLong s.params s.profile (1 + values.length) ↔ 255 ≤ values.length)) ∧
    ∀ d : Descriptor, d.op = 7 → d.data = values → presentCommand d s = exec (.setRow values) s

/-- R117, R118, R119: Clear, OutputEnable and OutputDisable queue the frames of `08`, `09` and `0A`, whatever the other
fields of their descriptors hold. -/
def Obligations.OperandlessCommandsQueueTheirFrames : Prop :=
  ∀ s : State, s.params.wf → IdleOpen s →
    exec .clear s = .next (s.queued [0x08]) ∧
    exec .outputEnable s = .next (s.queued [0x09]) ∧
    exec .outputDisable s = .next (s.queued [0x0A]) ∧
    ∀ d : Descriptor,
      (d.op = 8 → presentCommand d s = exec .clear s) ∧
      (d.op = 9 → presentCommand d s = exec .outputEnable s) ∧
      (d.op = 10 → presentCommand d s = exec .outputDisable s)

/-- R120: a descriptor with opcode 0 or 11 to 255 is `BAD_OPCODE`, and `ERR` alone changes. -/
def Obligations.UndefinedOpcodeIsBadOpcode : Prop :=
  ∀ (s : State) (d : Descriptor), IdleOpen s → (d.op = 0 ∨ 10 < d.op.toNat) →
    payload s.params d = .error .badOpcode ∧ presentCommand d s = .next { s with err := 1 }

/-- R161, R171: a command on the channel of a block that is busy or closed is not taken. R12 names held and refused as
outcomes of a step; that `exec` then answers the state unchanged is the model's reading of them (log 5). -/
def Obligations.CommandIsNotTakenWhileBusyOrClosed : Prop :=
  ∀ (s : State) (i : Instr) (d : Descriptor), ¬ IdleOpen s →
    exec i s = .next s ∧ presentCommand d s = .next s

/-! ### Errors (60_exceptions.md) -/

/-- R210, R212: the code an ACCEPT leaves is the first that applies of `BAD_OPCODE`, `PROFILE`, `BAD_OPERAND` and
`TOO_LONG`, else `NONE`. -/
def Obligations.ErrorCodesAndTheirPriority : Prop :=
  ∀ (s : State) (d : Descriptor), s.params.wf → IdleOpen s →
    let badOpcode := d.op = 0 ∨ 10 < d.op.toNat
    let wrongProfile := d.op = 5 ∧ s.profile = .legacy
    let badOperand := (d.op = 3 ∨ d.op = 5) ∧ 2 < d.a1.toNat
    let tooLong := (d.op = 2 ∧ PayloadTooLong s.params s.profile (2 + d.data.length)) ∨
      (d.op = 7 ∧ PayloadTooLong s.params s.profile (1 + d.data.length))
    ∃ t, presentCommand d s = .next t ∧
      (badOpcode → t.err = 1) ∧
      (¬ badOpcode ∧ wrongProfile → t.err = 2) ∧
      (¬ badOpcode ∧ ¬ wrongProfile ∧ badOperand → t.err = 3) ∧
      (¬ badOpcode ∧ ¬ wrongProfile ∧ ¬ badOperand ∧ tooLong → t.err = 4) ∧
      (¬ badOpcode ∧ ¬ wrongProfile ∧ ¬ badOperand ∧ ¬ tooLong → t.err = 0)

/-- R213: an ACCEPT that ends in an error records its code and changes nothing else: no byte leaves, no frame is
queued, the block stays idle and open, and the next command can be taken at once. -/
def Obligations.ErrorOutcomeIsPrecise : Prop :=
  ∀ (s : State) (d : Descriptor) (e : ErrCode), IdleOpen s → encodeFrame s.params d s.profile = .error e →
    presentCommand d s = .next { s with err := e.code } ∧
    ∀ t, presentCommand d s = .next t → t.cmdReady = true ∧ t.trace = s.trace ∧ t.fb = s.fb ∧
      t.flen = s.flen ∧ t.idx = s.idx ∧ t.profile = s.profile ∧ t.closed = s.closed

/-! ### The encode function and the profiles (41_frame_wrapping.md) -/

/-- R162 with R143: decoding a descriptor and running its command has the effect of ACCEPT on the spec's own encode
function, for every descriptor, every profile and every value of the parameters. -/
def Obligations.AcceptFollowsTheEncodeFunction : Prop :=
  ∀ (s : State) (d : Descriptor), IdleOpen s →
    presentCommand d s =
      match encodeFrame s.params d s.profile with
      | .ok frame =>
        .next { s with fb := frame, flen := frame.length, idx := 0, busy := true, err := 0 }
      | .error e => .next { s with err := e.code }

/-- R141, R142: the two wrappings, and the Framed length byte is the exact length. -/
def Obligations.WrappingOfAPayload : Prop :=
  ∀ bytes : List Byte, wrap .legacy bytes = bytes ∧
    (bytes.length ≤ 255 → ∃ len : Byte, len.toNat = bytes.length ∧
      wrap .framed bytes = [0x55, 0x4D, 0x58, len] ++ bytes)

/-- R144, R150: under Framed the limit is exact. A payload of up to 255 bytes is sent whole under its exact, nonzero
length byte; a longer one, which only WriteText and SetRow can have, is `TOO_LONG`; no frame is longer than 259 bytes
(R74). -/
def Obligations.FramedLengthLimitIsExact : Prop :=
  ∀ (P : Params) (d : Descriptor) (bytes : List Byte), payload P d = .ok bytes →
    (255 < bytes.length → (d.op = 2 ∨ d.op = 7) ∧ encodeFrame P d .framed = .error .tooLong) ∧
    (bytes.length ≤ 255 → ∃ (frame : List Byte) (len : Byte), encodeFrame P d .framed = .ok frame ∧
      len.toNat = bytes.length ∧ 1 ≤ len.toNat ∧ frame = [0x55, 0x4D, 0x58, len] ++ bytes ∧
      frame.length = bytes.length + 4 ∧ frame.length ≤ 259)

/-- R145: a Legacy payload is `TOO_LONG` only over a finite `LEGACY_MAX_PAYLOAD`, and else it is the frame. -/
def Obligations.LegacyLengthLimit : Prop :=
  ∀ (P : Params) (d : Descriptor) (bytes : List Byte), d.op ≠ 5 → payload P d = .ok bytes →
    ((∃ m, P.legacyMaxPayload = some m ∧ m < bytes.length) → encodeFrame P d .legacy = .error .tooLong) ∧
    ((∀ m, P.legacyMaxPayload = some m → bytes.length ≤ m) → encodeFrame P d .legacy = .ok bytes)

/-- R148: a Framed frame is the magic bytes, the length and the payload; every command but Animate has that payload
as its Legacy frame. -/
def Obligations.ProfileLaw : Prop :=
  ∀ (P : Params) (d : Descriptor) (frame : List Byte), P.wf → encodeFrame P d .framed = .ok frame →
    ∃ (bytes : List Byte) (len : Byte), payload P d = .ok bytes ∧ len.toNat = bytes.length ∧
      frame = [0x55, 0x4D, 0x58, len] ++ bytes ∧ (d.op ≠ 5 → encodeFrame P d .legacy = .ok bytes)

/-- R84: descriptor fields that a command does not use affect neither the frame nor the outcome. -/
def Obligations.UnusedDescriptorFieldsAreIgnored : Prop :=
  ∀ (s : State) (d : Descriptor),
    (d.op = 1 → presentCommand d s = presentCommand { op := 1, a0 := d.a0 } s) ∧
    (d.op = 2 → presentCommand d s = presentCommand { op := 2, a0 := d.a0, data := d.data } s) ∧
    (d.op = 3 → presentCommand d s = presentCommand { op := 3, a0 := d.a0, a1 := d.a1 } s) ∧
    (d.op = 4 → s.params.colorArgc = .four → presentCommand d s =
      presentCommand { op := 4, a0 := d.a0, a1 := d.a1, a2 := d.a2, a3 := d.a3 } s) ∧
    (d.op = 4 → s.params.colorArgc = .five → presentCommand d s =
      presentCommand { op := 4, a0 := d.a0, a1 := d.a1, a2 := d.a2, a3 := d.a3, a4 := d.a4 } s) ∧
    (d.op = 5 → (d.a1 = 0 ∨ 2 < d.a1.toNat) →
      presentCommand d s = presentCommand { op := 5, a0 := d.a0, a1 := d.a1 } s) ∧
    (d.op = 5 → d.a1 = 1 →
      presentCommand d s = presentCommand { op := 5, a0 := d.a0, a1 := 1, a2 := d.a2 } s) ∧
    (d.op = 5 → d.a1 = 2 →
      presentCommand d s = presentCommand { op := 5, a0 := d.a0, a1 := 2, a2 := d.a2, a3 := d.a3 } s) ∧
    (d.op = 6 → presentCommand d s =
      presentCommand { op := 6, a0 := d.a0, a1 := d.a1, a2 := d.a2, a3 := d.a3, a4 := d.a4 } s) ∧
    (d.op = 7 → presentCommand d s = presentCommand { op := 7, data := d.data } s) ∧
    (d.op = 8 ∨ d.op = 9 ∨ d.op = 10 ∨ d.op = 0 ∨ 10 < d.op.toNat →
      presentCommand d s = presentCommand { op := d.op } s)

/-- R43, R147: what an ACCEPT puts in the buffer depends on the command and the profile alone: two idle and open
states with the same profile (and the run's parameters) queue the same frame and record the same code, whatever
their old buffers, codes and records were. -/
def Obligations.FrameDependsOnCommandAndProfileAlone : Prop :=
  ∀ (s s' t t' : State) (d : Descriptor), IdleOpen s → IdleOpen s' →
    s.profile = s'.profile → s.params = s'.params →
    presentCommand d s = .next t → presentCommand d s' = .next t' →
    t.err = t'.err ∧ t.busy = t'.busy ∧ (t.busy = true → t.fb = t'.fb ∧ t.flen = t'.flen ∧ t.idx = t'.idx)

/-! ### Decoding and encoding (30_encoding.md) -/

/-- R82: decoding the payload of a well-formed command gives the command back, with every operand at every value. -/
def Obligations.DecodeOfEncodedPayload : Prop :=
  ∀ (P : Params) (i : Instr), WellFormed P i = true → decodePayload P (encode P i) = .ok i

/-- R82, R80: bytes that decode are the payload of the well-formed command they decode to, so nothing else is
accepted as a payload. That the decoder turns every other byte sequence away is the model's choice (log 20). -/
def Obligations.DecodedPayloadIsItsEncoding : Prop :=
  ∀ (P : Params) (bytes : List Byte) (i : Instr), decodePayload P bytes = .ok i →
    WellFormed P i = true ∧ encode P i = bytes

/-- R82 at the machine: every command its profile can send completes, and the frame then in `FB` decodes to it. -/
def Obligations.QueuedFrameDecodesToItsCommand : Prop :=
  ∀ (s : State) (i : Instr), IdleOpen s → Sendable s.params s.profile i = true →
    ∃ t, exec i s = .next t ∧ t.busy = true ∧ t.err = 0 ∧ decodeFrame s.params s.profile t.fb = some i

/-- R81: a Framed receiver at the start of a frame finds its end from the length byte, whatever follows. -/
def Obligations.FramedStreamIsSelfDelimiting : Prop :=
  ∀ (bytes rest : List Byte), 1 ≤ bytes.length → bytes.length ≤ 255 →
    readFramed (wrap .framed bytes ++ rest) = some (bytes, rest)

/-- R84, R83: the descriptor of a command decodes to that command. -/
def Obligations.DecodeOfEncodedDescriptor : Prop :=
  ∀ i : Instr, decodeDescriptor (encodeDescriptor i) = .ok i

/-- Words and payloads written out from the encodings of R75 decode to the commands they stand for. That the first byte
of a table word is its most significant one, and that absent operand bytes are 0, is the model's reading (log 11). -/
def Obligations.SampleWordsDecode : Prop :=
  decodeTableWord 8 0b00000001 = some (.setMode 0) ∧
  decodeTableWord 8 0b00001000 = some .clear ∧
  decodeTableWord 24 0b000001010000001100000010 = some (.animateSlide 3 0 0) ∧
  decodePayload Params.default [0b00000101, 0b00000010, 0b00000001, 0b00000111] = .ok (.animateBlink 2 7) ∧
  decodePayload Params.default [0b00000110, 1, 2, 3, 4, 1] = .ok (.setPixel 1 2 3 4 1) ∧
  decodePayload Params.default [0b00000010, 3, 65, 66] = .ok (.writeText 3 [65, 66])

/-! ### Reset (70_reset_and_hazards.md) -/

/-- R41, R241: the state after reset and the ready and valid signals there. -/
def Obligations.ResetStateValues : Prop :=
  State.reset.profile = State.reset.params.profileAtReset ∧ State.reset.cfgByte = 1 ∧
  State.reset.statusByte = 0 ∧ State.reset.busy = false ∧ State.reset.closed = false ∧ State.reset.err = 0 ∧
  State.reset.fb = [] ∧ State.reset.flen = 0 ∧ State.reset.idx = 0 ∧
  State.reset.cmdReady = true ∧ State.reset.closeReady = true ∧ State.reset.outValid = false ∧
  ∀ a v, State.reset.regReady (.write a v) = true

/-- R240, R241, R242: a step with `rst` leaves the reset state from every state, closed and mid-frame included,
whatever else is presented. No byte leaves, and the bytes already emitted stay on the line. That a register read
presented with `rst` is not answered, so that the reads recorded stay as they are, is the model's reading (log 7). -/
def Obligations.ResetStepFromEveryState : Prop :=
  ∀ s : State, s.presented.rst = true →
    ∃ t, step s = .next t ∧ t.profile = s.params.profileAtReset ∧ t.busy = false ∧ t.closed = false ∧
      t.err = 0 ∧ t.fb = [] ∧ t.flen = 0 ∧ t.idx = 0 ∧
      t.cfgByte.toNat = (if s.params.profileAtReset = .framed then 1 else 0) ∧ t.statusByte = 0 ∧
      t.cmdReady = true ∧ t.closeReady = true ∧ t.outValid = false ∧ (∀ a v, t.regReady (.write a v) = true) ∧
      t.trace = s.trace ∧ t.reads = s.reads ∧ t.params = s.params ∧ t.inputs = s.inputs.tail

/-! ### The controller's steps (42_controller.md) -/

/-- R162, R170: when the presented descriptor decodes to `i` and the block is idle and open, the step is `exec i`, on
the state whose inputs of this step are used up and whose record of the step is made; in that state the block, the
parameters and the trace are as before. A descriptor that decodes to no command runs its error there. That the command
comes before a register write or a close request presented with it is the fixed order of log 8, and that a register read
presented with it completes beside it is the model's reading (log 6). -/
def Obligations.StepRunsTheDecodedCommand : Prop :=
  ∀ (s : State) (d : Descriptor), s.presented.rst = false → IdleOpen s → s.presented.cmd = some d →
    (∀ i, decodeDescriptor d = .ok i → step s = exec i s.beginStep) ∧
    (∀ e, decodeDescriptor d = .error e → step s = presentError e s.beginStep) ∧
    SameBlock s s.beginStep ∧ s.beginStep.params = s.params ∧ s.beginStep.trace = s.trace ∧
    s.beginStep.inputs = s.inputs.tail ∧ s.beginStep.report.cmd = .taken

/-- The command an opcode-table word stands for, presented by `withFetchWord` to an idle and open block, runs at the very
next step, on the block as it was. That a command is presented, not fetched, is R21; the list of inputs it is put on is
the model's choice (logs 1 and 2). -/
def Obligations.FetchWordRunsNext : Prop :=
  ∀ (s : State) (nbits w : Nat) (i : Instr), IdleOpen s → decodeTableWord nbits w = some i →
    step (s.withFetchWord nbits w) = exec i (s.withFetchWord nbits w).beginStep ∧
    SameBlock s (s.withFetchWord nbits w).beginStep ∧ (s.withFetchWord nbits w).beginStep.inputs = s.inputs

/-- R164: in every state that meets R34, a step of a busy block with `out_ready = 1` sends `FB[IDX]`, marked last
exactly where `IDX = FLEN - 1` (R165); `IDX` advances, `BUSY` falls with the last byte, and nothing else of the block
changes. With `out_ready = 0` the byte is held: the block does not change and the output port stays as it was. That `FB`
keeps its contents also where the last byte leaves is the model's choice, which R35 leaves open (log 10). -/
def Obligations.EmitSendsOneByteOrHoldsIt : Prop :=
  ∀ s : State, Inv s → s.presented.rst = false → s.busy = true →
    (s.presented.outReady = true → ∃ (b : Byte) (t : State), s.fb[s.idx]? = some b ∧ step s = .next t ∧
      t.trace = s.trace ++ [{ byte := b, last := decide (s.idx = s.flen - 1) }] ∧
      t.idx = s.idx + 1 ∧ (t.busy = false ↔ s.idx + 1 = s.flen) ∧
      t.fb = s.fb ∧ t.flen = s.flen ∧ t.profile = s.profile ∧ t.closed = s.closed ∧ t.err = s.err ∧
      t.params = s.params) ∧
    (s.presented.outReady = false → ∃ t, step s = .next t ∧ SameBlock s t ∧ t.trace = s.trace ∧
      t.outValid = true ∧ t.outPort = s.outPort)

/-- R164, R172: while `out_ready = 0` a busy block holds its byte: no step but a reset changes the block, sends a byte
or lowers `out_valid`, whatever requests are presented, for however many steps. -/
def Obligations.StalledBlockHoldsItsByte : Prop :=
  ∀ (ins rest : List Inputs) (s : State), s.inputs = ins ++ rest → s.busy = true → NoReset ins →
    readyCount ins = 0 →
    ∃ t, run ins.length s = .next t ∧ SameBlock s t ∧ t.trace = s.trace ∧ t.inputs = rest ∧
      t.outPort = s.outPort

/-- R52, R58, R165, R166: the frame in flight leaves whole and in order. Over steps without reset, of which as many
have `out_ready = 1` as bytes remain, the last of them among these, the trace grows by exactly the bytes that
remained, `out_last` on the frame's last byte alone, whatever requests are presented meanwhile; then the block is
idle. That `FB` keeps its contents after the frame is complete is the model's choice, which R35 leaves open (log 10). -/
def Obligations.FrameInFlightLeavesWhole : Prop :=
  ∀ (ins rest : List Inputs) (final : Inputs) (s : State), Inv s → s.busy = true →
    s.inputs = ins ++ final :: rest → NoReset (ins ++ [final]) →
    readyCount ins = s.flen - s.idx - 1 → final.outReady = true →
    ∃ t, run (ins.length + 1) s = .next t ∧ t.trace = s.trace ++ (marked s.fb).drop s.idx ∧
      t.busy = false ∧ t.idx = t.flen ∧ t.fb = s.fb ∧ t.flen = s.flen ∧ t.profile = s.profile ∧
      t.closed = s.closed ∧ t.err = s.err ∧ t.inputs = rest

/-- R165, R37: in the list `marked frame` of a frame's transfers the mark `out_last` stands on the last byte and on no
other, and the bytes are the frame's, in order; and the byte and mark that a block whose `FLEN` is the length of `FB` has
at its output, and sends in an EMIT, are the entry `IDX` of `marked FB`. -/
def Obligations.EndMarkerOnTheLastByteAlone : Prop :=
  (∀ frame : List Byte, (marked frame).map OutTransfer.byte = frame ∧
    ∀ k (h : k < (marked frame).length), ((marked frame)[k].last = true ↔ k + 1 = frame.length)) ∧
  ∀ s : State, s.flen = s.fb.length → s.frontByte = (marked s.fb)[s.idx]? ∧
    (s.busy = true → s.outPort = (marked s.fb)[s.idx]?) ∧
    (∀ t, emit s = .next t → ∃ b, (marked s.fb)[s.idx]? = some b ∧ t.trace = s.trace ++ [b])

/-- R161, R167, R168, R36: a command, a register write or a close request presented while the last byte of a frame
leaves is held; a caller that does its duty presents it again, and the very next step takes it. Where several are
presented the order among them is that of log 8: the command, then the write, then the close. -/
def Obligations.HeldCommandIsTakenAfterTheFrame : Prop :=
  ∀ s t : State, Inv s → s.busy = true → s.idx + 1 = s.flen →
    s.presented.rst = false → s.presented.outReady = true → step s = .next t →
    callerHolds t.report s.presented t.presented → t.presented.rst = false →
    (∀ d, s.presented.cmd = some d →
      t.report.cmd = .held ∧ step t = presentCommand d t.beginStep ∧ t.beginStep.report.cmd = .taken) ∧
    (∀ addr data, s.presented.reg = some (.write addr data) → t.report.write = .held ∧
      (t.presented.cmd = none →
        step t = .next (t.beginStep.regWrite addr data) ∧ t.beginStep.report.write = .taken)) ∧
    (s.presented.close = true → t.report.close = .held ∧
      (t.presented.cmd = none → t.presented.writes = false →
        step t = .next { t.beginStep with closed := true } ∧ t.beginStep.report.close = .taken))

/-- R167: CLOSE of an idle and open block sets `CLOSED` and nothing else; while busy the request is held, while
closed it is refused, and neither changes `CLOSED`. That a register read presented with the request completes beside it is
the model's reading (log 6). -/
def Obligations.CloseRequest : Prop :=
  ∀ s : State, s.presented.rst = false → s.presented.close = true →
    (IdleOpen s → s.presented.cmd = none → s.presented.writes = false →
      step s = .next { s.beginStep with closed := true } ∧ s.beginStep.report.close = .taken) ∧
    (s.busy = true → s.closed = false →
      s.beginStep.report.close = .held ∧ ∀ t, step s = .next t → t.closed = false) ∧
    (s.busy = false → s.closed = true →
      s.beginStep.report.close = .refused ∧ step s = .next s.beginStep) ∧
    SameBlock s s.beginStep

/-- R168: a register write to an idle and open block writes bit 0 of the data to `CFG.PROFILE` at address 0, and has
no effect at any other address; while busy it is held and while closed refused, and the profile does not change. That a
write comes before a close request presented with it is the fixed order of log 8. -/
def Obligations.RegisterWrite : Prop :=
  ∀ (s : State) (addr data : Byte), s.presented.rst = false → s.presented.reg = some (.write addr data) →
    (IdleOpen s → s.presented.cmd = none → s.beginStep.report.write = .taken ∧
      (addr = 0 → step s =
        .next { s.beginStep with profile := if data.getLsbD 0 then .framed else .legacy }) ∧
      (addr ≠ 0 → step s = .next s.beginStep)) ∧
    (s.busy = true → s.closed = false → s.beginStep.report.write = .held ∧
      ∀ t, step s = .next t → t.profile = s.profile) ∧
    (s.busy = false → s.closed = true → s.beginStep.report.write = .refused ∧ step s = .next s.beginStep) ∧
    SameBlock s s.beginStep

/-- R169, R170: a register read is taken in every state, closed and busy included, and returns the value from before
the step; beside it the step does what it does without the read. R170 says so of a read beside an EMIT; that a read beside
an ACCEPT or a CLOSE completes in the same step is the model's reading (log 6). -/
def Obligations.RegisterRead : Prop :=
  ∀ (s t : State) (addr : Byte), s.presented.rst = false → s.presented.reg = some (.read addr) → step s = .next t →
    t.report.read = .taken ∧
    t.reads = s.reads ++ [{ addr := addr, rdata :=
      if addr = 0 then s.cfgByte else if addr = 1 then s.statusByte else 0 }] ∧
    ∃ t', step { s with inputs := { s.presented with reg := none } :: s.inputs.tail } = .next t' ∧
      SameBlock t' t ∧ t'.trace = t.trace

/-- R23, R26, R169: the bits of the two registers, reserved bits 0. -/
def Obligations.RegisterBits : Prop :=
  ∀ s : State, s.cfgByte.toNat = (if s.profile = .framed then 1 else 0) ∧
    s.statusByte.getLsbD 0 = s.busy ∧ s.statusByte.getLsbD 1 = s.closed ∧
    (∀ k, k < 3 → s.statusByte.getLsbD (2 + k) = s.err.getLsbD k) ∧
    (∀ k, 5 ≤ k → s.statusByte.getLsbD k = false)

/-- R37, R38, R39, R40: the ready and valid signals. -/
def Obligations.ReadyAndValidSignals : Prop :=
  ∀ s : State, (s.cmdReady = true ↔ s.busy = false ∧ s.closed = false) ∧
    (s.closeReady = true ↔ s.busy = false ∧ s.closed = false) ∧
    (∀ a, s.regReady (.read a) = true) ∧
    (∀ a v, s.regReady (.write a v) = true ↔ s.busy = false ∧ s.closed = false) ∧
    s.outValid = s.busy ∧ (s.busy = false → s.outPort = none) ∧
    (Inv s → s.busy = true → ∃ b, s.fb[s.idx]? = some b ∧
      s.outPort = some { byte := b, last := decide (s.idx = s.flen - 1) })

/-- R170: of the requests presented to an idle and open block, the command is taken first, then the register write,
then the close request, and each other one presented is held, whichever of them stand beside it. R170 also allows any
other order: the fixed one is the model's choice (log 8). -/
def Obligations.OrderOfSimultaneousRequests : Prop :=
  ∀ s : State, s.presented.rst = false → IdleOpen s →
    (∀ d, s.presented.cmd = some d →
      step s = presentCommand d s.beginStep ∧ s.beginStep.report.cmd = .taken ∧
      (s.presented.writes = true → s.beginStep.report.write = .held) ∧
      (s.presented.close = true → s.beginStep.report.close = .held)) ∧
    (∀ addr data, s.presented.cmd = none → s.presented.reg = some (.write addr data) →
      step s = .next (s.beginStep.regWrite addr data) ∧ s.beginStep.report.write = .taken ∧
      (s.presented.close = true → s.beginStep.report.close = .held)) ∧
    (s.presented.cmd = none → s.presented.writes = false → s.presented.close = true →
      step s = .next { s.beginStep with closed := true } ∧ s.beginStep.report.close = .taken)

/-- R171: once closed (and idle, as R34 has it), however many steps without reset follow and whatever they present, the
block stays as it is and no byte leaves; a command, register write or close request presented is refused. -/
def Obligations.ClosedUntilReset : Prop :=
  ∀ (ins rest : List Inputs) (s : State), s.inputs = ins ++ rest → s.closed = true → s.busy = false →
    NoReset ins →
    ∃ t, run ins.length s = .next t ∧ SameBlock s t ∧ t.trace = s.trace ∧ t.inputs = rest ∧
      ∀ i, ins.getLast? = some i →
        (i.cmd.isSome = true → t.report.cmd = .refused) ∧ (i.writes = true → t.report.write = .refused) ∧
        (i.close = true → t.report.close = .refused)

/-- R172: with nothing presented, an idle block does not change. -/
def Obligations.IdleBlockStaysAsItIs : Prop :=
  ∀ s : State, s.busy = false → s.presented.cmd = none → s.presented.reg = none → s.presented.close = false →
    s.presented.rst = false → ∃ t, step s = .next t ∧ SameBlock s t ∧ t.trace = s.trace ∧ t.reads = s.reads

/-! ### Invariants and whole-machine rules -/

/-- R34 holds in the reset state. -/
def Obligations.ResetMeetsTheInvariants : Prop := Inv State.reset ∧ State.reset.params.wf

/-- R34: every step from a state that meets the invariants, under every input, answers a next state that meets them:
no step of such a state stops. -/
def Obligations.EveryStepKeepsTheInvariants : Prop :=
  ∀ s : State, Inv s → ∃ t, step s = .next t ∧ Inv t

/-- R80: what is in the buffer is always the frame of a well-formed command that some profile sends: no undefined
opcode, no font or kind code above 2, no Animate under Legacy, and no length byte but the exact one. -/
def Obligations.BufferHoldsOnlyLegalFrames : Prop :=
  ∀ s t : State, step s = .next t → LegalBuffer s.params s.fb → LegalBuffer t.params t.fb

/-- R58: the line, which is what has left and what is still to leave of the frame in flight, grows in a step without
reset by exactly the whole frame of the command accepted in it, and by nothing otherwise: frames leave in order,
complete and not interleaved, and a command that ends in error adds nothing. -/
def Obligations.LineGrowsByWholeFrames : Prop :=
  ∀ s t : State, Inv s → s.presented.rst = false → step s = .next t → t.line = s.line ++ s.committed

/-- R28: `CLOSED` is set only by a CLOSE step and cleared only by reset. -/
def Obligations.ClosedChangesOnlyByCloseOrReset : Prop :=
  ∀ s t : State, step s = .next t → t.closed ≠ s.closed →
    (s.presented.rst = true ∧ t.closed = false) ∨ (s.grant = .close ∧ t.closed = true)

/-- R29: `ERR` is written by every ACCEPT, with the outcome of its encoding, and by nothing else except reset. -/
def Obligations.ErrChangesOnlyByAcceptOrReset : Prop :=
  ∀ s t : State, step s = .next t → s.presented.rst = false →
    (∀ d, s.grant = .command d → t.err =
      match encodeFrame s.params d s.profile with
      | .ok _ => 0
      | .error e => e.code) ∧
    ((∀ d, s.grant ≠ .command d) → t.err = s.err)

/-- R27: `BUSY` rises only by a successful ACCEPT and falls only by the EMIT of the last byte or by reset. -/
def Obligations.BusyChangesOnlyByAcceptEmitOrReset : Prop :=
  ∀ s t : State, step s = .next t → t.busy ≠ s.busy →
    (t.busy = true ∧ ∃ d frame, s.grant = .command d ∧ encodeFrame s.params d s.profile = .ok frame) ∨
    (t.busy = false ∧ s.presented.outReady = true ∧ s.idx + 1 = s.flen ∧ t.trace.length = s.trace.length + 1) ∨
    (t.busy = false ∧ s.presented.rst = true)

/-- R24, R59: `CFG.PROFILE` changes only by a register write taken at address 0 or by reset, so never while a frame is
in flight; and the frame in flight changes only by reset. That `FB` stays as it is in the step that completes the frame
too is the model's choice, which R35 leaves open (log 10). -/
def Obligations.ProfileAndFrameInFlightAreStable : Prop :=
  ∀ s t : State, step s = .next t → s.presented.rst = false →
    (t.profile ≠ s.profile → ∃ data, s.grant = .regWrite 0 data) ∧
    (s.busy = true → t.fb = s.fb ∧ t.flen = s.flen ∧ t.profile = s.profile)

/-- R32, R33: `FLEN` is written only by a successful ACCEPT and by reset; `IDX` is set to 0 by those two, advances by
one in an EMIT, and changes in no other step. -/
def Obligations.LengthAndIndexWriters : Prop :=
  ∀ s t : State, step s = .next t → s.presented.rst = false →
    (∀ d frame, s.grant = .command d → encodeFrame s.params d s.profile = .ok frame →
      t.flen = frame.length ∧ 1 ≤ t.flen ∧ t.idx = 0) ∧
    ((∀ d frame, s.grant = .command d → encodeFrame s.params d s.profile ≠ .ok frame) →
      t.flen = s.flen ∧
      t.idx = (if s.busy = true ∧ s.presented.outReady = true then s.idx + 1 else s.idx))

/-- R22, R42: the parameters are fixed for a run, a step uses up the inputs of one step, no step takes back a transfer
or a read already recorded, and no step sends more than one byte. -/
def Obligations.ParametersAreFixedAndRecordsGrow : Prop :=
  ∀ s t : State, step s = .next t → t.params = s.params ∧ t.inputs = s.inputs.tail ∧
    s.trace <+: t.trace ∧ s.reads <+: t.reads ∧ t.trace.length ≤ s.trace.length + 1

/-! ### The front end's contract (43_front_end.md) -/

/-- R194, R195: the font code and the kind code of a name; any other name falls back to 0. The two kind names differ
(they are open parameters, log 16). Where `FONT_NAME_CASEFOLD` holds a font name is lower-cased first, its ASCII letters
alone, which is the model's choice (log 19). -/
def Obligations.NameCodesFallBackToZero : Prop :=
  ∀ (F : FrontEndParams) (name : Text), F.animNameBlink ≠ F.animNameSlide →
    let n := if F.fontNameCasefold then name.map Char.toLower else name
    (n = "ibm".toList → fontCode F name = 2) ∧ (n = "pro".toList → fontCode F name = 1) ∧
    (n ≠ "ibm".toList → n ≠ "pro".toList → fontCode F name = 0) ∧
    (name = F.animNameBlink → kindCode F name = 1) ∧ (name = F.animNameSlide → kindCode F name = 2) ∧
    (name ≠ F.animNameBlink → name ≠ F.animNameSlide → kindCode F name = 0)

/-- R149: a SetFont built from any name is sent, under both profiles, and its frame ends in the name's code. -/
def Obligations.FontNameReachesTheLine : Prop :=
  ∀ (F : FrontEndParams) (s : State) (col : Byte) (name : Text), s.params.wf → IdleOpen s →
    ∃ t, exec (.setFont col (fontCode F name)) s = .next t ∧ t.fb.getLast? = some (fontCode F name) ∧
      (fontCode F name).toNat ≤ 2

/-- R192: a numeral's value becomes a byte only where it is 0 to 255, and is never reduced modulo 256. -/
def Obligations.NumericArgumentIsNeverReduced : Prop :=
  ∀ (word : Text) (n : Nat), decimal word = some n →
    (n ≤ 255 → ∃ b : Byte, numericArg word = .ok b ∧ b.toNat = n) ∧
    (255 < n → numericArg word = .error .outOfRange)

/-- R197: each ASCII character is one byte with its code; a text with any other character is turned away. -/
def Obligations.TextIsAsciiBytes : Prop :=
  ∀ text : Text,
    ((∀ c ∈ text, c.toNat ≤ 127) → ∃ bytes, textBytes text = .ok bytes ∧
      bytes.map BitVec.toNat = text.map Char.toNat) ∧
    ((∃ c ∈ text, 127 < c.toNat) → textBytes text = .error .nonAscii)

/-- R196, R199, R200, R243: the loop's first step opens the connection, which resets the block whatever state it stands
in; no later step opens it. A line whose command name is not recognized, or that has no word, makes the close request. The
loop presents it: while a frame is in flight the block only emits, and once the block takes it the block is closed and
the loop is left for good. That the loop is such a machine is the model's choice (log 17). -/
def Obligations.UnrecognizedNameCloses : Prop :=
  ∀ (F : FrontEndParams) (ready : Bool),
    (∀ (lines : List Text) (block : State), ∃ v, Session.step F ready (Session.start lines block) = .next v ∧
      v.phase = .reading ∧ v.lines = lines ∧ v.errors = [] ∧ v.block.profile = block.params.profileAtReset ∧
      v.block.busy = false ∧ v.block.closed = false ∧ v.block.err = 0 ∧ v.block.fb = [] ∧ v.block.flen = 0 ∧
      v.block.idx = 0 ∧ v.block.trace = block.trace ∧ v.block.params = block.params) ∧
    ∀ w : Session,
      (∀ v, Session.step F ready w = .next v → v.phase ≠ .opening) ∧
      (∀ line rest, w.phase = .reading → w.lines = line :: rest →
        (splitWords line = [] ∨ ∃ name args, splitWords line = name :: args ∧ ∀ k, F.cmdName k ≠ name) →
        Session.step F ready w = .next { w with lines := rest, phase := .closing }) ∧
      (w.phase = .closing → Inv w.block → w.block.busy = true →
        ∃ v, Session.step F ready w = .next v ∧ v.phase = .closing ∧ v.lines = w.lines ∧ v.errors = w.errors ∧
          OnlyEmits ready w.block v.block) ∧
      (w.phase = .closing → IdleOpen w.block →
        ∃ v, Session.step F ready w = .next v ∧ v.phase = .left ∧ v.block.closed = true ∧
          v.block.trace = w.block.trace ∧ v.lines = w.lines ∧ v.errors = w.errors) ∧
      (w.phase = .left → Session.step F ready w = .next w)

/-- R190: a line that is presented under Framed never has a payload of more than 255 bytes. -/
def Obligations.PresentedLineFitsItsFrame : Prop :=
  ∀ (F : FrontEndParams) (P : Params) (line : Text) (d : Descriptor),
    readLine F P .framed line = .present d → ∃ frame, encodeFrame P d .framed = .ok frame

/-- R193, R199: what the loop does with a line. A line that is turned away is reported, the block is not touched, and the
next line is read. A line that is a command is presented: while the block is busy or closed it stays presented and the
block at most emits; an idle and open block takes it, with the effect of its ACCEPT. Then no line is read and nothing is
presented while the frame is in flight, in which the block at most emits; the next line is read once it has left. With no
line left the loop waits. That the loop is such a machine is the model's choice (log 17). -/
def Obligations.RejectedLineLeavesTheBlock : Prop :=
  ∀ (F : FrontEndParams) (w : Session) (ready : Bool),
    (w.phase = .reading → w.lines = [] → Session.step F ready w = .next w) ∧
    (∀ line rest e, w.phase = .reading → w.lines = line :: rest →
      readLine F w.block.params w.block.profile line = .rejected e →
      Session.step F ready w =
        .next { lines := rest, phase := .reading, errors := w.errors ++ [e], block := w.block }) ∧
    (∀ line rest d, w.phase = .reading → w.lines = line :: rest →
      readLine F w.block.params w.block.profile line = .present d →
      Session.step F ready w =
        .next { lines := rest, phase := .presenting d, errors := w.errors, block := w.block }) ∧
    (∀ d, w.phase = .presenting d → Inv w.block → ¬ IdleOpen w.block →
      ∃ v, Session.step F ready w = .next v ∧ v.phase = .presenting d ∧ v.lines = w.lines ∧
        v.errors = w.errors ∧ OnlyEmits ready w.block v.block) ∧
    (∀ d, w.phase = .presenting d → IdleOpen w.block →
      ∃ v t, Session.step F ready w = .next v ∧ presentCommand d w.block = .next t ∧ SameBlock t v.block ∧
        v.block.trace = w.block.trace ∧ v.phase = .draining ∧ v.lines = w.lines ∧ v.errors = w.errors) ∧
    (w.phase = .draining → Inv w.block →
      ∃ v, Session.step F ready w = .next v ∧ v.phase = (if v.block.busy then .draining else .reading) ∧
        v.lines = w.lines ∧ v.errors = w.errors ∧ OnlyEmits ready w.block v.block)
end

