-- ==== Sys2Proof/Laws/State.lean ====
section
/-! SUPPORT. What each update of the state does to each field, one lemma a field, so that no proof unfolds an update. -/

namespace Sys2Proof.Machine

/-! ### State.loadFrame -/

@[simp] theorem loadFrame_profile (s : State) (frame : List Byte) : (s.loadFrame frame).profile = s.profile := rfl
@[simp] theorem loadFrame_busy (s : State) (frame : List Byte) : (s.loadFrame frame).busy = true := rfl
@[simp] theorem loadFrame_closed (s : State) (frame : List Byte) : (s.loadFrame frame).closed = s.closed := rfl
@[simp] theorem loadFrame_err (s : State) (frame : List Byte) : (s.loadFrame frame).err = errNone := rfl
@[simp] theorem loadFrame_fb (s : State) (frame : List Byte) : (s.loadFrame frame).fb = frame := rfl
@[simp] theorem loadFrame_flen (s : State) (frame : List Byte) : (s.loadFrame frame).flen = frame.length := rfl
@[simp] theorem loadFrame_idx (s : State) (frame : List Byte) : (s.loadFrame frame).idx = 0 := rfl
@[simp] theorem loadFrame_params (s : State) (frame : List Byte) : (s.loadFrame frame).params = s.params := rfl
@[simp] theorem loadFrame_inputs (s : State) (frame : List Byte) : (s.loadFrame frame).inputs = s.inputs := rfl
@[simp] theorem loadFrame_trace (s : State) (frame : List Byte) : (s.loadFrame frame).trace = s.trace := rfl
@[simp] theorem loadFrame_reads (s : State) (frame : List Byte) : (s.loadFrame frame).reads = s.reads := rfl
@[simp] theorem loadFrame_report (s : State) (frame : List Byte) : (s.loadFrame frame).report = s.report := rfl

/-! ### State.takeError -/

@[simp] theorem takeError_profile (s : State) (e : ErrCode) : (s.takeError e).profile = s.profile := rfl
@[simp] theorem takeError_busy (s : State) (e : ErrCode) : (s.takeError e).busy = s.busy := rfl
@[simp] theorem takeError_closed (s : State) (e : ErrCode) : (s.takeError e).closed = s.closed := rfl
@[simp] theorem takeError_err (s : State) (e : ErrCode) : (s.takeError e).err = e.code := rfl
@[simp] theorem takeError_fb (s : State) (e : ErrCode) : (s.takeError e).fb = s.fb := rfl
@[simp] theorem takeError_flen (s : State) (e : ErrCode) : (s.takeError e).flen = s.flen := rfl
@[simp] theorem takeError_idx (s : State) (e : ErrCode) : (s.takeError e).idx = s.idx := rfl
@[simp] theorem takeError_params (s : State) (e : ErrCode) : (s.takeError e).params = s.params := rfl
@[simp] theorem takeError_inputs (s : State) (e : ErrCode) : (s.takeError e).inputs = s.inputs := rfl
@[simp] theorem takeError_trace (s : State) (e : ErrCode) : (s.takeError e).trace = s.trace := rfl
@[simp] theorem takeError_reads (s : State) (e : ErrCode) : (s.takeError e).reads = s.reads := rfl
@[simp] theorem takeError_report (s : State) (e : ErrCode) : (s.takeError e).report = s.report := rfl

/-! ### State.emitByte -/

@[simp] theorem emitByte_profile (s : State) (b : OutTransfer) : (s.emitByte b).profile = s.profile := rfl
@[simp] theorem emitByte_busy (s : State) (b : OutTransfer) : (s.emitByte b).busy = (if s.idx + 1 = s.flen then false else s.busy) := rfl
@[simp] theorem emitByte_closed (s : State) (b : OutTransfer) : (s.emitByte b).closed = s.closed := rfl
@[simp] theorem emitByte_err (s : State) (b : OutTransfer) : (s.emitByte b).err = s.err := rfl
@[simp] theorem emitByte_fb (s : State) (b : OutTransfer) : (s.emitByte b).fb = s.fb := rfl
@[simp] theorem emitByte_flen (s : State) (b : OutTransfer) : (s.emitByte b).flen = s.flen := rfl
@[simp] theorem emitByte_idx (s : State) (b : OutTransfer) : (s.emitByte b).idx = s.idx + 1 := rfl
@[simp] theorem emitByte_params (s : State) (b : OutTransfer) : (s.emitByte b).params = s.params := rfl
@[simp] theorem emitByte_inputs (s : State) (b : OutTransfer) : (s.emitByte b).inputs = s.inputs := rfl
@[simp] theorem emitByte_trace (s : State) (b : OutTransfer) : (s.emitByte b).trace = s.trace ++ [b] := rfl
@[simp] theorem emitByte_reads (s : State) (b : OutTransfer) : (s.emitByte b).reads = s.reads := rfl
@[simp] theorem emitByte_report (s : State) (b : OutTransfer) : (s.emitByte b).report = s.report := rfl

/-! ### State.takeClose -/

@[simp] theorem takeClose_profile (s : State) : (s.takeClose).profile = s.profile := rfl
@[simp] theorem takeClose_busy (s : State) : (s.takeClose).busy = s.busy := rfl
@[simp] theorem takeClose_closed (s : State) : (s.takeClose).closed = true := rfl
@[simp] theorem takeClose_err (s : State) : (s.takeClose).err = s.err := rfl
@[simp] theorem takeClose_fb (s : State) : (s.takeClose).fb = s.fb := rfl
@[simp] theorem takeClose_flen (s : State) : (s.takeClose).flen = s.flen := rfl
@[simp] theorem takeClose_idx (s : State) : (s.takeClose).idx = s.idx := rfl
@[simp] theorem takeClose_params (s : State) : (s.takeClose).params = s.params := rfl
@[simp] theorem takeClose_inputs (s : State) : (s.takeClose).inputs = s.inputs := rfl
@[simp] theorem takeClose_trace (s : State) : (s.takeClose).trace = s.trace := rfl
@[simp] theorem takeClose_reads (s : State) : (s.takeClose).reads = s.reads := rfl
@[simp] theorem takeClose_report (s : State) : (s.takeClose).report = s.report := rfl

/-! ### State.beginStep -/

@[simp] theorem beginStep_profile (s : State) : (s.beginStep).profile = s.profile := rfl
@[simp] theorem beginStep_busy (s : State) : (s.beginStep).busy = s.busy := rfl
@[simp] theorem beginStep_closed (s : State) : (s.beginStep).closed = s.closed := rfl
@[simp] theorem beginStep_err (s : State) : (s.beginStep).err = s.err := rfl
@[simp] theorem beginStep_fb (s : State) : (s.beginStep).fb = s.fb := rfl
@[simp] theorem beginStep_flen (s : State) : (s.beginStep).flen = s.flen := rfl
@[simp] theorem beginStep_idx (s : State) : (s.beginStep).idx = s.idx := rfl
@[simp] theorem beginStep_params (s : State) : (s.beginStep).params = s.params := rfl
@[simp] theorem beginStep_inputs (s : State) : (s.beginStep).inputs = s.inputs.tail := rfl
@[simp] theorem beginStep_trace (s : State) : (s.beginStep).trace = s.trace := rfl
@[simp] theorem beginStep_reads (s : State) : (s.beginStep).reads = s.reads ++ s.readLog := rfl
@[simp] theorem beginStep_report (s : State) : (s.beginStep).report = s.reportOf := rfl

/-! ### State.takeReset -/

@[simp] theorem takeReset_profile (s : State) : (s.takeReset).profile = s.params.profileAtReset := rfl
@[simp] theorem takeReset_busy (s : State) : (s.takeReset).busy = false := rfl
@[simp] theorem takeReset_closed (s : State) : (s.takeReset).closed = false := rfl
@[simp] theorem takeReset_err (s : State) : (s.takeReset).err = errNone := rfl
@[simp] theorem takeReset_fb (s : State) : (s.takeReset).fb = [] := rfl
@[simp] theorem takeReset_flen (s : State) : (s.takeReset).flen = 0 := rfl
@[simp] theorem takeReset_idx (s : State) : (s.takeReset).idx = 0 := rfl
@[simp] theorem takeReset_params (s : State) : (s.takeReset).params = s.params := rfl
@[simp] theorem takeReset_inputs (s : State) : (s.takeReset).inputs = s.inputs.tail := rfl
@[simp] theorem takeReset_trace (s : State) : (s.takeReset).trace = s.trace := rfl
@[simp] theorem takeReset_reads (s : State) : (s.takeReset).reads = s.reads := rfl

/-! ### State.withFetchWord -/

@[simp] theorem withFetchWord_profile (s : State) (n w : Nat) : (s.withFetchWord n w).profile = s.profile := rfl
@[simp] theorem withFetchWord_busy (s : State) (n w : Nat) : (s.withFetchWord n w).busy = s.busy := rfl
@[simp] theorem withFetchWord_closed (s : State) (n w : Nat) : (s.withFetchWord n w).closed = s.closed := rfl
@[simp] theorem withFetchWord_err (s : State) (n w : Nat) : (s.withFetchWord n w).err = s.err := rfl
@[simp] theorem withFetchWord_fb (s : State) (n w : Nat) : (s.withFetchWord n w).fb = s.fb := rfl
@[simp] theorem withFetchWord_flen (s : State) (n w : Nat) : (s.withFetchWord n w).flen = s.flen := rfl
@[simp] theorem withFetchWord_idx (s : State) (n w : Nat) : (s.withFetchWord n w).idx = s.idx := rfl
@[simp] theorem withFetchWord_params (s : State) (n w : Nat) : (s.withFetchWord n w).params = s.params := rfl
@[simp] theorem withFetchWord_inputs (s : State) (n w : Nat) : (s.withFetchWord n w).inputs = fetchInputs n w :: s.inputs := rfl
@[simp] theorem withFetchWord_trace (s : State) (n w : Nat) : (s.withFetchWord n w).trace = s.trace := rfl
@[simp] theorem withFetchWord_reads (s : State) (n w : Nat) : (s.withFetchWord n w).reads = s.reads := rfl
@[simp] theorem withFetchWord_report (s : State) (n w : Nat) : (s.withFetchWord n w).report = s.report := rfl

/-! ### State.regWrite -/

@[simp] theorem regWrite_profile (s : State) (a v : Byte) :
    (s.regWrite a v).profile = if a = 0 then profileOfBit (v.getLsbD 0) else s.profile := by
  unfold State.regWrite; split <;> rfl
@[simp] theorem regWrite_busy (s : State) (a v : Byte) : (s.regWrite a v).busy = s.busy := by
  unfold State.regWrite; split <;> rfl
@[simp] theorem regWrite_closed (s : State) (a v : Byte) : (s.regWrite a v).closed = s.closed := by
  unfold State.regWrite; split <;> rfl
@[simp] theorem regWrite_err (s : State) (a v : Byte) : (s.regWrite a v).err = s.err := by
  unfold State.regWrite; split <;> rfl
@[simp] theorem regWrite_fb (s : State) (a v : Byte) : (s.regWrite a v).fb = s.fb := by
  unfold State.regWrite; split <;> rfl
@[simp] theorem regWrite_flen (s : State) (a v : Byte) : (s.regWrite a v).flen = s.flen := by
  unfold State.regWrite; split <;> rfl
@[simp] theorem regWrite_idx (s : State) (a v : Byte) : (s.regWrite a v).idx = s.idx := by
  unfold State.regWrite; split <;> rfl
@[simp] theorem regWrite_params (s : State) (a v : Byte) : (s.regWrite a v).params = s.params := by
  unfold State.regWrite; split <;> rfl
@[simp] theorem regWrite_inputs (s : State) (a v : Byte) : (s.regWrite a v).inputs = s.inputs := by
  unfold State.regWrite; split <;> rfl
@[simp] theorem regWrite_trace (s : State) (a v : Byte) : (s.regWrite a v).trace = s.trace := by
  unfold State.regWrite; split <;> rfl
@[simp] theorem regWrite_reads (s : State) (a v : Byte) : (s.regWrite a v).reads = s.reads := by
  unfold State.regWrite; split <;> rfl
@[simp] theorem regWrite_report (s : State) (a v : Byte) : (s.regWrite a v).report = s.report := by
  unfold State.regWrite; split <;> rfl

end Sys2Proof.Machine
end

