-- ==== Sys2Proof/Laws/Frame.lean ====
section
/-! SUPPORT. Lemmas about wrapping, the length limits and the end marker. -/

namespace Sys2Proof

@[simp] theorem wrap_legacy (bytes : List Byte) : wrap .legacy bytes = bytes := rfl

theorem wrap_framed (bytes : List Byte) :
    wrap .framed bytes = [0x55, 0x4D, 0x58, BitVec.ofNat 8 bytes.length] ++ bytes := rfl

theorem wrap_framed_length (bytes : List Byte) : (wrap .framed bytes).length = bytes.length + 4 := by
  simp [wrap_framed]

theorem wrap_length_pos (p : Profile) {bytes : List Byte} (h : 1 ≤ bytes.length) : 1 ≤ (wrap p bytes).length := by
  cases p
  · simpa using h
  · simp [wrap_framed_length]

/-- The length byte is exact wherever a Framed frame is formed (R150). -/
theorem lengthByte_toNat {n : Nat} (h : n ≤ 255) : (BitVec.ofNat 8 n).toNat = n := by
  simp only [BitVec.toNat_ofNat]
  omega

theorem encode_ne_nil (P : Params) (i : Instr) : encode P i ≠ [] := by
  cases i <;> simp only [encode, ne_eq, reduceCtorEq, not_false_eq_true]
  cases P.colorArgc <;> simp

theorem encode_length (P : Params) (i : Instr) : (encode P i).length = i.payloadLength P := by
  cases i <;> simp only [encode, Instr.payloadLength, List.length_cons, List.length_nil] <;> try omega
  cases P.colorArgc <;> rfl

namespace Machine

/-- The check of `Params.fits` is the spec's own condition (R144, R145). -/
theorem fits_iff_not_tooLong (P : Params) (p : Profile) (n : Nat) :
    P.fits p n = true ↔ ¬ PayloadTooLong P p n := by
  cases p with
  | framed => exact decide_eq_true_iff.trans Nat.not_lt.symm
  | legacy => cases h : P.legacyMaxPayload <;> simp [Params.fits, PayloadTooLong, h]

/-- A payload of at most 255 bytes fits under both profiles (R145, R148). -/
theorem fits_of_short {P : Params} (hP : P.wf) (p : Profile) {n : Nat} (h : n ≤ 255) : P.fits p n = true := by
  rw [fits_iff_not_tooLong]
  cases p with
  | framed => simp only [PayloadTooLong]; omega
  | legacy =>
    rintro ⟨m, hm, hlt⟩
    have := hP m (by simp [hm])
    omega

theorem frameResult_ok {P : Params} {p : Profile} {bytes : List Byte} (h : P.fits p bytes.length = true) :
    frameResult P p (.ok bytes) = .ok (wrap p bytes) := by simp [frameResult, h]

theorem frameResult_tooLong {P : Params} {p : Profile} {bytes : List Byte} (h : P.fits p bytes.length = false) :
    frameResult P p (.ok bytes) = .error .tooLong := by simp [frameResult, h]

@[simp] theorem frameResult_error (P : Params) (p : Profile) (e : ErrCode) :
    frameResult P p (.error e) = .error e := rfl

/-- What a frame is: the wrapping of a payload that fits. -/
theorem frameResult_eq_ok {P : Params} {p : Profile} {r : Except ErrCode (List Byte)} {frame : List Byte}
    (h : frameResult P p r = .ok frame) :
    ∃ bytes, r = .ok bytes ∧ P.fits p bytes.length = true ∧ frame = wrap p bytes := by
  cases r with
  | error e => simp at h
  | ok bytes =>
    cases hf : P.fits p bytes.length with
    | false => simp [frameResult, hf] at h
    | true =>
      rw [frameResult_ok hf] at h
      exact ⟨bytes, rfl, hf, (Except.ok.inj h).symm⟩

/-! ### The end marker -/

@[simp] theorem marked_nil : marked [] = [] := rfl
@[simp] theorem marked_singleton (b : Byte) : marked [b] = [{ byte := b, last := true }] := rfl
@[simp] theorem marked_cons_cons (b c : Byte) (rest : List Byte) :
    marked (b :: c :: rest) = { byte := b, last := false } :: marked (c :: rest) := rfl

@[simp] theorem marked_length (frame : List Byte) : (marked frame).length = frame.length := by
  induction frame with
  | nil => rfl
  | cons b rest ih => cases rest <;> simp_all

/-- The `k`-th transfer of a frame (R37, R165). -/
theorem marked_getElem? (frame : List Byte) (k : Nat) :
    (marked frame)[k]? =
      (frame[k]?).map fun b => { byte := b, last := decide (k + 1 = frame.length) } := by
  induction frame generalizing k with
  | nil => simp
  | cons b rest ih =>
    cases rest with
    | nil => cases k <;> simp
    | cons c rest =>
      cases k with
      | zero => simp
      | succ k => simpa using ih k

end Machine

end Sys2Proof
end

