-- ==== Sys2Proof/Laws/Ops.lean ====
section
/-! SUPPORT. What each shared operation can do, said once, and the inversion of one step. -/

namespace Sys2Proof.Machine

open Host (Outcome)

/-! ### ACCEPT -/

theorem cmdReady_iff (s : State) : s.cmdReady = true ↔ IdleOpen s := by
  simp [State.cmdReady, IdleOpen]

/-- ACCEPT of an idle and open block (R162). -/
theorem presentPayload_of_idle {s : State} (h : IdleOpen s) (r : Except ErrCode (List Byte)) :
    presentPayload r s = .next (s.takeResult (frameResult s.params s.profile r)) := by
  simp [presentPayload, (cmdReady_iff s).2 h]

/-- A command on the channel of a busy or closed block (R161). -/
theorem presentPayload_of_not_idle {s : State} (h : ¬ IdleOpen s) (r : Except ErrCode (List Byte)) :
    presentPayload r s = .next s := by
  have : s.cmdReady = false := by
    cases hc : s.cmdReady with
    | false => rfl
    | true => exact absurd ((cmdReady_iff s).1 hc) h
  simp [presentPayload, this]

/-- A payload that fits is queued. -/
theorem presentPayload_queued {s : State} (h : IdleOpen s) {bytes : List Byte}
    (hf : s.params.fits s.profile bytes.length = true) : presentPayload (.ok bytes) s = .next (s.queued bytes) := by
  rw [presentPayload_of_idle h, frameResult_ok hf]; rfl

/-- A payload that does not fit is `TOO_LONG`. -/
theorem presentPayload_tooLong {s : State} (h : IdleOpen s) {bytes : List Byte}
    (hf : s.params.fits s.profile bytes.length = false) :
    presentPayload (.ok bytes) s = .next { s with err := 4 } := by
  rw [presentPayload_of_idle h, frameResult_tooLong hf]; rfl

/-- A payload that is an error records its code (R213). -/
theorem presentPayload_error {s : State} (h : IdleOpen s) (e : ErrCode) :
    presentPayload (.error e) s = .next { s with err := e.code } := by
  rw [presentPayload_of_idle h]; rfl

/-- The payload of each command, errors of its own included: what its meaning gives to ACCEPT. -/
def instrPayload (P : Params) (p : Profile) : Instr → Except ErrCode (List Byte)
  | .setFont col font => checkFont font [0x03, col, font]
  | .animateNone col => needsFramed p [0x05, col, 0x00]
  | .animateBlink col period => needsFramed p [0x05, col, 0x01, period]
  | .animateSlide col period distance => needsFramed p [0x05, col, 0x02, period, distance]
  | i => .ok (encode P i)

/-- Every meaning is ACCEPT of the command's payload. -/
theorem exec_eq_presentPayload (i : Instr) (s : State) :
    exec i s = presentPayload (instrPayload s.params s.profile i) s := by
  cases i <;> try rfl
  simp only [exec, execSetColor, instrPayload, encode, colorOperands]
  cases s.params.colorArgc <;> rfl

/-- A meaning's payload, where it is none of the command's errors, is the encoding of the command. -/
theorem instrPayload_eq_ok {P : Params} {p : Profile} {i : Instr} {bytes : List Byte}
    (h : instrPayload P p i = .ok bytes) :
    bytes = encode P i ∧ (i.framedOnly = true → p = .framed) ∧
      (∀ col font, i = .setFont col font → font.toNat ≤ 2) := by
  cases i <;> cases p <;>
    simp_all [instrPayload, encode, needsFramed, checkFont, Instr.framedOnly] <;>
    first
    | exact h.symm
    | (split at h <;> simp_all)

/-- ACCEPT of a presented descriptor, by what the descriptor decodes to. -/
theorem presentCommand_eq_presentPayload (d : Descriptor) (s : State) :
    presentCommand d s =
      match decodeDescriptor d with
      | .ok i => presentPayload (instrPayload s.params s.profile i) s
      | .error e => presentPayload (.error (descriptorError s.profile e)) s := by
  unfold presentCommand presentError
  split <;> simp_all [exec_eq_presentPayload]

/-! ### EMIT -/

theorem emit_of_byte {s : State} {t : OutTransfer} (h : s.frontByte = some t) : emit s = .next (s.emitByte t) := by
  simp [emit, h]

theorem emit_next {s u : State} (h : emit s = .next u) : ∃ t, s.frontByte = some t ∧ u = s.emitByte t := by
  unfold emit at h
  split at h
  · next t ht => exact ⟨t, ht, by simpa using h.symm⟩
  · cases h

/-- A busy block that meets R34 has a byte to send. -/
theorem Inv.frontByte {s : State} (hi : Inv s) (hb : s.busy = true) :
    ∃ b, s.fb[s.idx]? = some b ∧ s.frontByte = some { byte := b, last := decide (s.idx + 1 = s.flen) } := by
  have hlt : s.idx < s.fb.length := hi.flen_eq ▸ hi.busy_iff.1 hb
  exact ⟨s.fb[s.idx], by simp [hlt], by simp [State.frontByte, hlt]⟩

/-! ### The record of a step -/

@[simp] theorem frontByte_beginStep (s : State) : s.beginStep.frontByte = s.frontByte := rfl
@[simp] theorem cmdReady_beginStep (s : State) : s.beginStep.cmdReady = s.cmdReady := rfl

theorem sameBlock_beginStep (s : State) : SameBlock s s.beginStep := ⟨rfl, rfl, rfl, rfl, rfl, rfl, rfl⟩

theorem idleOpen_beginStep (s : State) : IdleOpen s.beginStep ↔ IdleOpen s := Iff.rfl

theorem sameBlock_trans {s t u : State} (h : SameBlock s t) (h' : SameBlock t u) : SameBlock s u :=
  ⟨h'.profile.trans h.profile, h'.busy.trans h.busy, h'.closed.trans h.closed, h'.err.trans h.err,
   h'.fb.trans h.fb, h'.flen.trans h.flen, h'.idx.trans h.idx⟩

/-! ### Arbitration (R170) -/

theorem grant_of_not_idle {s : State} (h : ¬ IdleOpen s) : s.grant = .nothing := by
  unfold State.grant
  split
  · rfl
  · next hc => exact absurd (by simpa [IdleOpen] using hc) h

/-- The request taken, in terms of what is presented. -/
theorem grant_of_idle {s : State} (h : IdleOpen s) :
    s.grant =
      match s.presented.cmd, s.presented.reg, s.presented.close with
      | some d, _, _ => .command d
      | none, some (.write addr data), _ => .regWrite addr data
      | none, _, true => .close
      | none, _, false => .nothing := by
  show (if s.busy || s.closed then Grant.nothing else _) = _
  exact if_neg (by simp [h.1, h.2])

theorem grant_command {s : State} {d : Descriptor} (h : IdleOpen s) (hc : s.presented.cmd = some d) :
    s.grant = .command d := by
  simp [grant_of_idle h, hc]

theorem idleOpen_of_grant {s : State} (h : s.grant ≠ .nothing) : IdleOpen s :=
  Classical.byContradiction fun hn => h (grant_of_not_idle hn)

/-! ### One step -/

theorem step_of_reset {s : State} (h : s.presented.rst = true) : step s = .next s.takeReset := by simp [step, h]

theorem step_of_busy {s : State} (h : s.presented.rst = false) (hb : s.busy = true) :
    step s = drain s.presented.outReady s.beginStep := by simp [step, transfer, h, hb]

theorem step_of_not_busy {s : State} (h : s.presented.rst = false) (hb : s.busy = false) :
    step s = serve s.grant s.beginStep := by simp [step, transfer, h, hb]

/-- Everything a step that answers a next state can have done. -/
theorem step_cases {s t : State} (h : step s = .next t) :
    (s.presented.rst = true ∧ t = s.takeReset) ∨
    (s.presented.rst = false ∧ s.busy = true ∧ s.grant = .nothing ∧
      ((s.presented.outReady = false ∧ t = s.beginStep) ∨
       (s.presented.outReady = true ∧ ∃ b, s.frontByte = some b ∧ t = s.beginStep.emitByte b))) ∨
    (s.presented.rst = false ∧ s.busy = false ∧
      ((∃ d, s.grant = .command d ∧ IdleOpen s ∧ presentCommand d s.beginStep = .next t) ∨
       (∃ addr data, s.grant = .regWrite addr data ∧ IdleOpen s ∧ t = s.beginStep.regWrite addr data) ∨
       (s.grant = .close ∧ IdleOpen s ∧ t = s.beginStep.takeClose) ∨
       (s.grant = .nothing ∧ t = s.beginStep))) := by
  cases hr : s.presented.rst with
  | true =>
    rw [step_of_reset hr] at h
    exact .inl ⟨rfl, by simpa using h.symm⟩
  | false =>
    refine .inr ?_
    cases hb : s.busy with
    | true =>
      rw [step_of_busy hr hb, drain] at h
      refine .inl ⟨rfl, rfl, grant_of_not_idle (by simp [IdleOpen, hb]), ?_⟩
      cases ho : s.presented.outReady with
      | false =>
        simp [ho] at h
        exact .inl ⟨rfl, h.symm⟩
      | true =>
        simp [ho] at h
        obtain ⟨b, hf, rfl⟩ := emit_next h
        exact .inr ⟨rfl, b, hf, rfl⟩
    | false =>
      rw [step_of_not_busy hr hb] at h
      refine .inr ⟨rfl, rfl, ?_⟩
      cases hg : s.grant with
      | command d =>
        rw [hg] at h
        exact .inl ⟨d, rfl, idleOpen_of_grant (by simp [hg]), h⟩
      | regWrite addr data =>
        rw [hg] at h
        exact .inr (.inl ⟨addr, data, rfl, idleOpen_of_grant (by simp [hg]), by simpa [serve] using h.symm⟩)
      | close =>
        rw [hg] at h
        exact .inr (.inr (.inl ⟨rfl, idleOpen_of_grant (by simp [hg]), by simpa [serve] using h.symm⟩))
      | nothing =>
        rw [hg] at h
        exact .inr (.inr (.inr ⟨rfl, by simpa [serve] using h.symm⟩))

/-- A step in which no request is taken: the byte at the output leaves where the block is busy and the transport ready,
else the block stays as it is. -/
theorem step_of_grant_nothing {s : State} (hi : Inv s) (hr : s.presented.rst = false) (hg : s.grant = .nothing) :
    (s.busy = true ∧ s.presented.outReady = true ∧
      ∃ b, s.frontByte = some b ∧ step s = .next (s.beginStep.emitByte b)) ∨
    (¬ (s.busy = true ∧ s.presented.outReady = true) ∧ step s = .next s.beginStep) := by
  cases hb : s.busy with
  | false => exact .inr ⟨by simp, by rw [step_of_not_busy hr hb, hg]; rfl⟩
  | true =>
    rw [step_of_busy hr hb, drain]
    cases ho : s.presented.outReady with
    | false => exact .inr ⟨by simp, rfl⟩
    | true =>
      obtain ⟨b, _, hf⟩ := hi.frontByte hb
      exact .inl ⟨rfl, rfl, _, hf, emit_of_byte (s := s.beginStep) hf⟩

/-! ### Runs -/

@[simp] theorem run_zero (s : State) : run 0 s = .next s := rfl

theorem run_succ {k : Nat} {s t : State} (h : step s = .next t) : run (k + 1) s = run k t := by simp [run, h]

/-- The run of `j + k` steps is the run of `k` steps after the run of `j`. -/
theorem run_add {j k : Nat} {s t : State} (h : run j s = .next t) : run (j + k) s = run k t := by
  induction j generalizing s with
  | zero => simp at h; simp [h]
  | succ j ih =>
    have hs : ∃ u, step s = .next u ∧ run j u = .next t := by
      unfold run at h
      split at h
      · next u hu => exact ⟨u, hu, h⟩
      · cases h
      · cases h
    obtain ⟨u, hu, hrun⟩ := hs
    rw [show j + 1 + k = (j + k) + 1 by omega, run_succ hu]
    exact ih hrun

theorem presented_of_inputs {s : State} {i : Inputs} {rest : List Inputs} (h : s.inputs = i :: rest) :
    s.presented = i := by simp [State.presented, h]

end Sys2Proof.Machine
end

