-- ==== Sys2Proof/Laws/Decode.lean ====
section
/-! SUPPORT. The case split over opcodes and kinds, and one lemma per case of the decoder and of the encode function. -/

namespace Sys2Proof

/-- A byte is the numeral of its value. -/
theorem toNat_eq_iff {a : Byte} {n : Nat} (h : n < 256) : a.toNat = n ↔ a = BitVec.ofNat 8 n := by
  constructor
  · intro e
    apply BitVec.eq_of_toNat_eq
    simp [e]
    omega
  · rintro rfl
    simp
    omega

/-- 30_encoding.md R84: the rows of the descriptor table. -/
theorem opcode_cases (op : Byte) :
    op = 1 ∨ op = 2 ∨ op = 3 ∨ op = 4 ∨ op = 5 ∨ op = 6 ∨ op = 7 ∨ op = 8 ∨ op = 9 ∨ op = 10 ∨
      (op = 0 ∨ 10 < op.toNat) := by
  by_cases h : 10 < op.toNat
  · simp [h]
  · generalize hn : op.toNat = n at h
    have hop : op = BitVec.ofNat 8 n := (toNat_eq_iff (by omega)).1 hn
    subst hop
    have : n ≤ 10 := by omega
    interval_cases n <;> simp

/-- R78: the kinds of Animate. -/
theorem kind_cases (k : Byte) : k = 0 ∨ k = 1 ∨ k = 2 ∨ 2 < k.toNat := by
  have key : ∀ n : Nat, n < 256 → k.toNat = n → k = BitVec.ofNat 8 n := fun n hn h => (toNat_eq_iff hn).1 h
  rcases (show k.toNat = 0 ∨ k.toNat = 1 ∨ k.toNat = 2 ∨ 2 < k.toNat by omega) with h | h | h | h
  · exact .inl (key 0 (by decide) h)
  · exact .inr (.inl (key 1 (by decide) h))
  · exact .inr (.inr (.inl (key 2 (by decide) h)))
  · exact .inr (.inr (.inr h))

theorem toNat_of_undefined {op : Byte} (h : op = 0 ∨ 10 < op.toNat) : op.toNat = 0 ∨ 10 < op.toNat := by
  rcases h with rfl | h
  · exact .inl rfl
  · exact .inr h

theorem decodeDescriptor_badOpcode {d : Descriptor} (h : d.op = 0 ∨ 10 < d.op.toNat) :
    decodeDescriptor d = .error (.badOpcode d.op) := by
  have := toNat_of_undefined h
  unfold decodeDescriptor
  split <;> first | omega | rfl

theorem decodeDescriptor_badKind {d : Descriptor} (hd : d.op = 5) (hk : 2 < d.a1.toNat) :
    decodeDescriptor d = .error (.badKind d.a1) := by
  simp only [decodeDescriptor, hd]
  simp
  split <;> first | omega | rfl

namespace Machine

theorem payload_badOpcode (P : Params) {d : Descriptor} (h : d.op = 0 ∨ 10 < d.op.toNat) :
    payload P d = .error .badOpcode := by
  have := toNat_of_undefined h
  unfold payload
  split <;> first | omega | rfl

/-- A payload that is formed has a defined opcode and at least that byte (10_state.md R32). -/
theorem payload_ok {P : Params} {d : Descriptor} {bytes : List Byte} (h : payload P d = .ok bytes) :
    1 ≤ bytes.length ∧ ¬ (d.op = 0 ∨ 10 < d.op.toNat) := by
  constructor
  · unfold payload at h
    split at h <;> try split at h
    all_goals simp at h
    all_goals subst h; simp
  · intro hb
    rw [payload_badOpcode P hb] at h
    cases h

/-! ### The encode function (41_frame_wrapping.md R143), check by check -/

theorem encodeFrame_badOpcode (P : Params) (p : Profile) {d : Descriptor} (h : d.op = 0 ∨ 10 < d.op.toNat) :
    encodeFrame P d p = .error .badOpcode := by
  unfold encodeFrame
  rw [if_pos h]

theorem encodeFrame_animate_legacy (P : Params) {d : Descriptor} (h : d.op = 5) :
    encodeFrame P d .legacy = .error .profile := by
  unfold encodeFrame
  rw [if_neg (by simp [h]), if_pos (by simp [h])]

/-- Past the first two checks, the rest is the payload, its length check and its wrapping. -/
theorem encodeFrame_of_defined (P : Params) (p : Profile) {d : Descriptor} (hop : ¬ (d.op = 0 ∨ 10 < d.op.toNat))
    (h5 : ¬ (d.op = 5 ∧ p = .legacy)) : encodeFrame P d p = frameResult P p (payload P d) := by
  unfold encodeFrame
  rw [if_neg hop, if_neg h5]
  cases payload P d with
  | error e => rfl
  | ok bytes =>
    unfold frameResult Params.fits
    cases p <;> cases P.legacyMaxPayload <;> simp <;> (split <;> split <;> first | rfl | omega)

/-- Every frame holds at least one byte (10_state.md R32). -/
theorem encodeFrame_length_pos {P : Params} {d : Descriptor} {p : Profile} {frame : List Byte}
    (h : encodeFrame P d p = .ok frame) : 1 ≤ frame.length := by
  have hop : ¬ (d.op = 0 ∨ 10 < d.op.toNat) := fun hb => by
    rw [encodeFrame_badOpcode P p hb] at h
    cases h
  have h5 : ¬ (d.op = 5 ∧ p = .legacy) := by
    rintro ⟨hd, rfl⟩
    rw [encodeFrame_animate_legacy P hd] at h
    cases h
  rw [encodeFrame_of_defined P p hop h5] at h
  obtain ⟨bytes, hb, _, rfl⟩ := frameResult_eq_ok h
  exact wrap_length_pos p (payload_ok hb).1

/-! ### A presented descriptor -/

theorem presentCommand_of_ok {d : Descriptor} {i : Instr} (s : State) (h : decodeDescriptor d = .ok i) :
    presentCommand d s = exec i s := by simp [presentCommand, h]

theorem presentCommand_of_error {d : Descriptor} {e : DescriptorError} (s : State)
    (h : decodeDescriptor d = .error e) : presentCommand d s = presentError e s := by simp [presentCommand, h]

end Machine

/-! ### Whole frames -/

/-- What the frame decoder reads under Legacy: a payload that is no Animate (R71, R80). -/
theorem decodeFrame_legacy_eq_some (P : Params) (bytes : List Byte) (i : Instr) :
    decodeFrame P .legacy bytes = some i ↔ decodePayload P bytes = .ok i ∧ i.framedOnly = false := by
  simp only [decodeFrame]
  cases decodePayload P bytes with
  | error e => simp
  | ok j =>
    simp only [Option.ite_none_left_eq_some, Option.some.injEq, Except.ok.injEq, Bool.not_eq_true]
    constructor
    · rintro ⟨hj, rfl⟩
      exact ⟨rfl, hj⟩
    · rintro ⟨rfl, hj⟩
      exact ⟨hj, rfl⟩

/-- What it reads under Framed: the payload of exactly one frame (R72). -/
theorem decodeFrame_framed_eq_some (P : Params) (bytes : List Byte) (i : Instr) :
    decodeFrame P .framed bytes = some i ↔
      ∃ payload, readFramed bytes = some (payload, []) ∧ decodePayload P payload = .ok i := by
  simp only [decodeFrame]
  split
  · next payload h => cases hd : decodePayload P payload <;> simp [h, hd, Except.toOption]
  · next h =>
    constructor
    · intro hn
      cases hn
    · rintro ⟨payload, hp, _⟩
      exact absurd hp (h payload)

end Sys2Proof
end

