-- ==== Sys2Proof/Laws/FrontEnd.lean ====
section
/-! SUPPORT. Lemmas about the front end's mappings. -/

namespace Sys2Proof.Machine

/-- What a bind of two front-end steps that succeeds has done. -/
theorem except_bind_ok {ε α β : Type} {x : Except ε α} {f : α → Except ε β} {b : β} (h : (x >>= f) = .ok b) :
    ∃ a, x = .ok a ∧ f a = .ok b := by
  cases x with
  | error e => cases h
  | ok a => exact ⟨a, rfl, h⟩

/-- 43_front_end.md R194: a name gives one of the three font codes. -/
theorem fontCode_le (F : FrontEndParams) (name : Text) : (fontCode F name).toNat ≤ 2 := by
  have key : ∀ n : Text,
      (if n = ['i', 'b', 'm'] then (2 : Byte) else if n = ['p', 'r', 'o'] then 1 else 0).toNat ≤ 2 := by
    intro n
    split
    · decide
    · split <;> decide
  exact key _

/-- R195: a name gives one of the three kind codes. -/
theorem kindCode_le (F : FrontEndParams) (name : Text) : (kindCode F name).toNat ≤ 2 := by
  unfold kindCode
  split
  · decide
  · split <;> decide

/-- R190: the checks on extra arguments never change the descriptor. -/
theorem checkExtra_ok {F : FrontEndParams} {rest : List Text} {d d' : Descriptor}
    (h : checkExtra F rest d = .ok d') : d' = d := by
  unfold checkExtra at h
  split at h <;> cases h
  rfl

/-! ### The loop -/

/-- A loop step that drives the block ends where the block's step ends. -/
theorem drive_of_step {w : Session} {i : Inputs} {place : State → Phase} {t : State}
    (h : Machine.step { w.block with inputs := [i] } = .next t) :
    w.drive i place = .next { w with block := t, phase := place t } := by
  simp [Session.drive, h]

/-- R200: the first step of a session is the reset of its block. -/
theorem step_start (F : FrontEndParams) (ready : Bool) (lines : List Text) (block : State) :
    Session.step F ready (Session.start lines block) =
      .next { lines := lines, phase := .reading, errors := [],
              block := State.takeReset { block with inputs := [{ rst := true, outReady := ready }] } } := rfl

/-- R199: only in the phase `reading` does the loop read a line or report an error. -/
theorem lines_of_step {F : FrontEndParams} {ready : Bool} {w v : Session} (hp : w.phase ≠ .reading)
    (h : Session.step F ready w = .next v) : v.lines = w.lines ∧ v.errors = w.errors := by
  have hd : ∀ {i : Inputs} {place : State → Phase}, w.drive i place = .next v →
      v.lines = w.lines ∧ v.errors = w.errors := by
    intro i place hdrive
    unfold Session.drive at hdrive
    split at hdrive
    · cases hdrive; exact ⟨rfl, rfl⟩
    · cases hdrive
    · cases hdrive
  unfold Session.step at h
  split at h
  · exact hd h
  · exact absurd ‹_› hp
  · exact hd h
  · exact hd h
  · exact hd h
  · cases h; exact ⟨rfl, rfl⟩

end Sys2Proof.Machine
end

