-- ==== Sys2Proof/Laws/PerInstr.lean ====
section
/-! SUPPORT. Families of one lemma per command, over the command as syntax. -/

namespace Sys2Proof.Laws.Encoding

/-- 30_encoding.md R70, R75: a command's payload opens with its opcode and has its length. -/
def Statement (i : Instr) : Prop :=
  ∀ P : Params, (encode P i).head? = some i.opcode ∧ (encode P i).length = i.payloadLength P

theorem setMode (mode : Byte) : Statement (.setMode mode) := fun P => ⟨rfl, encode_length P _⟩
theorem writeText (col : Byte) (text : List Byte) : Statement (.writeText col text) :=
  fun P => ⟨rfl, encode_length P _⟩
theorem setFont (col font : Byte) : Statement (.setFont col font) := fun P => ⟨rfl, encode_length P _⟩
theorem setColor (o0 o1 o2 o3 o4 : Byte) : Statement (.setColor o0 o1 o2 o3 o4) :=
  fun P => ⟨by simp only [encode]; cases P.colorArgc <;> rfl, encode_length P _⟩
theorem animateNone (col : Byte) : Statement (.animateNone col) := fun P => ⟨rfl, encode_length P _⟩
theorem animateBlink (col period : Byte) : Statement (.animateBlink col period) :=
  fun P => ⟨rfl, encode_length P _⟩
theorem animateSlide (col period distance : Byte) : Statement (.animateSlide col period distance) :=
  fun P => ⟨rfl, encode_length P _⟩
theorem setPixel (x y w h st : Byte) : Statement (.setPixel x y w h st) := fun P => ⟨rfl, encode_length P _⟩
theorem setRow (values : List Byte) : Statement (.setRow values) := fun P => ⟨rfl, encode_length P _⟩
theorem clear : Statement .clear := fun P => ⟨rfl, encode_length P _⟩
theorem outputEnable : Statement .outputEnable := fun P => ⟨rfl, encode_length P _⟩
theorem outputDisable : Statement .outputDisable := fun P => ⟨rfl, encode_length P _⟩

end Sys2Proof.Laws.Encoding
end

