-- ==== Sys2Proof/Tests/Slice0.lean ====
section
/-! SUPPORT. Tests. Expected results are the vectors W, V and P of spec/95_test_vectors.md, the encodings of
30_encoding.md R75, or written out by hand from the rule named; and a witness for the hypotheses of each statement. -/

namespace Sys2Proof.Tests

open Sys2Proof.Machine
open Host (Outcome)

/-! ### Helpers -/

/-- The next state of an outcome. -/
def out (o : Outcome State Fault Refusal) : Option State :=
  match o with
  | .next t => some t
  | .fault _ => none
  | .refused _ => none

/-- One field of the next state. -/
def field {α : Type} (f : State → α) (o : Outcome State Fault Refusal) : Option α := (out o).map f

/-- What a line of text comes to, and the descriptor a result holds. -/
def presentedBy : LineResult → Option Descriptor
  | .present d => some d
  | .closeRequest => none
  | .rejected _ => none

def framedIdle : State := State.reset
def legacyIdle : State := { State.reset with profile := .legacy }
def fiveIdle : State := { legacyIdle with params := { Params.default with colorArgc := .five } }
def limitedIdle : State := { legacyIdle with params := { Params.default with legacyMaxPayload := some 255 } }

/-- The state after V40: Clear accepted under Framed. -/
def clearInFlight : State :=
  { State.reset with fb := [0x55, 0x4D, 0x58, 0x01, 0x08], flen := 5, busy := true }
def lastByteLeft : State := { clearInFlight with idx := 4 }
/-- V55: two bytes of the frame have left. -/
def twoSent : State :=
  { clearInFlight with idx := 2, trace := [{ byte := 0x55, last := false }, { byte := 0x4D, last := false }] }
def closedIdle : State := { State.reset with closed := true }

/-- A state with these inputs to come. -/
def withInputs (s : State) (ins : List Inputs) : State := { s with inputs := ins }

/-! ### WellFormed refuses ill-formed terms (R77, R84, R113, R145) -/

theorem test_wf_refuses_font_3 : WellFormed Params.default (.setFont 1 3) = false := by decide
theorem test_wf_accepts_font_2 : WellFormed Params.default (.setFont 1 2) = true := by decide
theorem test_wf_refuses_fifth_color_operand : WellFormed Params.default (.setColor 1 2 3 4 5) = false := by decide
theorem test_wf_accepts_fifth_color_operand :
    WellFormed { Params.default with colorArgc := .five } (.setColor 1 2 3 4 5) = true := by decide
theorem test_sendable_refuses_animate_legacy : Sendable Params.default .legacy (.animateNone 1) = false := by decide
theorem test_sendable_refuses_long_text :
    Sendable Params.default .framed (.writeText 0 (List.replicate 254 0x41)) = false := by decide +kernel
theorem test_params_refuse_limit_254 : ¬ ({ Params.default with legacyMaxPayload := some 254 } : Params).wf := by
  decide

/-! ### Words written out from the encodings of R75 -/

theorem test_decode_setMode : decodePayload Params.default [0b00000001, 0b11111111] = .ok (.setMode 255) := by decide
theorem test_decode_writeText :
    decodePayload Params.default [0b00000010, 0b00000011, 0b01000001, 0b01000010] = .ok (.writeText 3 [0x41, 0x42]) := by
  decide
theorem test_decode_setFont :
    decodePayload Params.default [0b00000011, 0b00000100, 0b00000010] = .ok (.setFont 4 2) := by decide
theorem test_decode_setColor :
    decodePayload Params.default [0b00000100, 0b11111111, 0, 0b10000000, 0b00110010] =
      .ok (.setColor 255 0 128 50 0) := by decide
theorem test_decode_setColor_five :
    decodePayload { Params.default with colorArgc := .five } [0b00000100, 1, 0b11111111, 0, 0b10000000, 0b00110010] =
      .ok (.setColor 1 255 0 128 50) := by decide
theorem test_decode_animateNone :
    decodePayload Params.default [0b00000101, 0b00000010, 0b00000000] = .ok (.animateNone 2) := by decide
theorem test_decode_animateBlink :
    decodePayload Params.default [0b00000101, 0b00000010, 0b00000001, 0b00000111] = .ok (.animateBlink 2 7) := by
  decide
theorem test_decode_animateSlide :
    decodePayload Params.default [0b00000101, 0b00000010, 0b00000010, 0b00000101, 0b00001010] =
      .ok (.animateSlide 2 5 10) := by decide
theorem test_decode_setPixel :
    decodePayload Params.default [0b00000110, 1, 2, 3, 4, 1] = .ok (.setPixel 1 2 3 4 1) := by decide
theorem test_decode_setRow : decodePayload Params.default [0b00000111, 1, 2, 3] = .ok (.setRow [1, 2, 3]) := by decide
theorem test_decode_operandless :
    decodePayload Params.default [0b00001000] = .ok .clear ∧
    decodePayload Params.default [0b00001001] = .ok .outputEnable ∧
    decodePayload Params.default [0b00001010] = .ok .outputDisable := by decide
theorem test_decode_rejects_by_name :
    decodePayload Params.default [0] = .error (.badOpcode 0) ∧
    decodePayload Params.default [11] = .error (.badOpcode 11) ∧
    decodePayload Params.default [3, 1, 3] = .error (.badFont 3) ∧
    decodePayload Params.default [5, 1, 3] = .error (.badKind 3) ∧
    decodePayload Params.default [8, 0] = .error (.badLength 8) ∧
    decodePayload Params.default [] = .error .empty := by decide

/-- The twelve rows' words (match values of the table), operand bytes 0. -/
theorem test_table_words :
    decodeTableWord 8 1 = some (.setMode 0) ∧ decodeTableWord 8 2 = some (.writeText 0 []) ∧
    decodeTableWord 8 3 = some (.setFont 0 0) ∧ decodeTableWord 8 4 = some (.setColor 0 0 0 0 0) ∧
    decodeTableWord 24 0x050000 = some (.animateNone 0) ∧ decodeTableWord 24 0x050001 = some (.animateBlink 0 0) ∧
    decodeTableWord 24 0x050002 = some (.animateSlide 0 0 0) ∧
    decodeTableWord 8 6 = some (.setPixel 0 0 0 0 0) ∧ decodeTableWord 8 7 = some (.setRow []) ∧
    decodeTableWord 8 8 = some .clear ∧ decodeTableWord 8 9 = some .outputEnable ∧
    decodeTableWord 8 10 = some .outputDisable ∧ decodeTableWord 8 11 = none := by decide

theorem test_fetch_word_runs :
    field (·.fb) (step (State.reset.withFetchWord 24 0x050001)) = some [0x55, 0x4D, 0x58, 4, 5, 0, 1, 0] ∧
    field (·.fb) (step (State.reset.withFetchWord 8 10)) = some [0x55, 0x4D, 0x58, 1, 0x0A] := by decide

/-! ### The commands: vectors V1 to V26, W1 to W8 -/

theorem test_V3_setMode : field (·.fb) (exec (.setMode 0xFF) framedIdle) = some [0x55, 0x4D, 0x58, 2, 1, 0xFF] := by decide
theorem test_V4_writeText :
    field (·.fb) (exec (.writeText 3 [0x41, 0x42]) framedIdle) =
      some [0x55, 0x4D, 0x58, 4, 2, 3, 0x41, 0x42] := by decide
theorem test_V6_writeText_transparent :
    field (·.fb) (exec (.writeText 7 [0x00, 0xFF]) legacyIdle) = some [2, 7, 0x00, 0xFF] := by decide
theorem test_V9_setFont : field (·.fb) (exec (.setFont 1 2) framedIdle) = some [0x55, 0x4D, 0x58, 3, 3, 1, 2] := by decide
theorem test_V10_setFont_badOperand :
    field (fun t => (t.err, t.busy, t.fb)) (exec (.setFont 1 3) legacyIdle) = some (3, false, []) := by decide
theorem test_V11_setColor_four :
    field (·.fb) (presentCommand { op := 4, a0 := 0x0A, a1 := 0x14, a2 := 0x1E, a3 := 0x28, a4 := 0x63 } framedIdle) =
      some [0x55, 0x4D, 0x58, 5, 4, 0x0A, 0x14, 0x1E, 0x28] := by decide
theorem test_V12_setColor_five :
    field (·.fb) (exec (.setColor 1 0xFF 0 0x80 0x32) fiveIdle) = some [4, 1, 0xFF, 0, 0x80, 0x32] := by decide
theorem test_V13_animateNone :
    field (·.fb) (presentCommand { op := 5, a0 := 2, a1 := 0, a2 := 9, a3 := 9 } framedIdle) =
      some [0x55, 0x4D, 0x58, 3, 5, 2, 0] := by decide
theorem test_V14_animateBlink :
    field (·.fb) (presentCommand { op := 5, a0 := 2, a1 := 1, a2 := 7, a3 := 9 } framedIdle) =
      some [0x55, 0x4D, 0x58, 4, 5, 2, 1, 7] := by decide
theorem test_V15_animateSlide :
    field (·.fb) (exec (.animateSlide 2 5 10) framedIdle) = some [0x55, 0x4D, 0x58, 5, 5, 2, 2, 5, 0x0A] := by decide
theorem test_V15_animateSlide_legacy :
    field (fun t => (t.err, t.busy)) (exec (.animateSlide 2 5 10) legacyIdle) = some (2, false) := by decide
theorem test_V16_kind_3_priority :
    field (·.err) (presentCommand { op := 5, a0 := 2, a1 := 3, a2 := 5, a3 := 10 } legacyIdle) = some 2 ∧
    field (·.err) (presentCommand { op := 5, a0 := 2, a1 := 3, a2 := 5, a3 := 10 } framedIdle) = some 3 := by decide
theorem test_V17_setPixel :
    field (·.fb) (exec (.setPixel 1 2 3 4 1) framedIdle) = some [0x55, 0x4D, 0x58, 6, 6, 1, 2, 3, 4, 1] := by decide
theorem test_V19_setRow_empty : field (·.fb) (exec (.setRow []) framedIdle) = some [0x55, 0x4D, 0x58, 1, 7] := by decide
theorem test_V20_setRow : field (·.fb) (exec (.setRow [1, 2, 3]) legacyIdle) = some [7, 1, 2, 3] := by decide
theorem test_V21_clear :
    field (·.fb) (presentCommand { op := 8, a0 := 5, a1 := 5, a2 := 5, a3 := 5, a4 := 5, data := [1] } legacyIdle) =
      some [8] := by decide
theorem test_V22_outputEnable : field (·.fb) (exec .outputEnable framedIdle) = some [0x55, 0x4D, 0x58, 1, 9] := by decide
theorem test_V23_outputDisable : field (·.fb) (exec .outputDisable legacyIdle) = some [0x0A] := by decide
theorem test_V24_V25_V26_badOpcode :
    field (·.err) (presentCommand { op := 0 } framedIdle) = some 1 ∧
    field (·.err) (presentCommand { op := 11 } legacyIdle) = some 1 ∧
    field (·.err) (presentCommand { op := 255 } framedIdle) = some 1 := by decide

/-! ### Encodings that are never on the line (R80) -/

theorem test_decodeFrame_animate_under_framed_alone :
    decodeFrame Params.default .framed [0x55, 0x4D, 0x58, 3, 5, 1, 0] = some (.animateNone 1) ∧
    decodeFrame Params.default .legacy [5, 1, 0] = none ∧
    decodeFrame Params.default .legacy [3, 1, 2] = some (.setFont 1 2) := by decide
theorem test_decodeFrame_length_byte :
    decodeFrame Params.default .framed [0x55, 0x4D, 0x58, 0] = none ∧
    decodeFrame Params.default .framed [0x55, 0x4D, 0x58, 2, 8] = none := by decide

/-! ### Lengths: vectors V30 to V35 -/

theorem test_V30_text_253 :
    field (fun t => (t.err, t.flen, t.fb.take 7)) (exec (.writeText 0 (List.replicate 253 0x41)) framedIdle) =
      some (0, 259, [0x55, 0x4D, 0x58, 0xFF, 2, 0, 0x41]) := by decide +kernel
theorem test_V31_text_254 :
    field (fun t => (t.err, t.busy, t.fb)) (exec (.writeText 0 (List.replicate 254 0x41)) framedIdle) =
      some (4, false, []) := by decide +kernel
theorem test_V32_V33_row :
    field (fun t => (t.err, t.flen)) (exec (.setRow (List.replicate 254 0)) framedIdle) = some (0, 259) ∧
    field (·.err) (exec (.setRow (List.replicate 255 0)) framedIdle) = some 4 := by decide +kernel
theorem test_V34_V35_legacy_limit :
    field (fun t => (t.err, t.flen)) (exec (.writeText 0 (List.replicate 254 0x41)) legacyIdle) = some (0, 256) ∧
    field (·.err) (exec (.writeText 0 (List.replicate 254 0x41)) limitedIdle) = some 4 := by decide +kernel

/-! ### Controller steps: vectors V40 to V55, programs P1 to P4 -/

theorem test_V40_accept :
    field (fun t => (t.fb, t.flen, t.idx, t.busy, t.err)) (step (withInputs State.reset [{ cmd := some { op := 8 } }])) =
      some ([0x55, 0x4D, 0x58, 1, 8], 5, 0, true, 0) ∧
    field (fun t => (t.cmdReady, t.outPort, t.trace)) (step (withInputs State.reset [{ cmd := some { op := 8 } }])) =
      some (false, some { byte := 0x55, last := false }, []) := by decide
theorem test_V41_first_and_last_emit :
    field (fun t => (t.trace, t.busy, t.idx)) (step (withInputs clearInFlight [{ outReady := true }])) =
      some ([{ byte := 0x55, last := false }], true, 1) ∧
    field (fun t => (t.trace, t.busy, t.idx, t.cmdReady)) (step (withInputs lastByteLeft [{ outReady := true }])) =
      some ([{ byte := 8, last := true }], false, 5, true) := by decide
theorem test_V42_held :
    field (fun t => (t.report.cmd, t.idx, t.fb, t.statusByte))
      (step (withInputs clearInFlight [{ cmd := some { op := 1, a0 := 1 } }])) =
      some (.held, 0, [0x55, 0x4D, 0x58, 1, 8], 0x01) := by decide
theorem test_V43_cfg_write_then_clear :
    field (·.profile) (step (withInputs State.reset [{ reg := some (.write 0 0) }])) = some .legacy ∧
    field (fun t => (t.fb, t.outPort)) (exec .clear legacyIdle) = some ([8], some { byte := 8, last := true }) := by
  decide
theorem test_V44_V46_V47_status :
    field (·.statusByte) (presentCommand { op := 0 } framedIdle) = some 0x04 ∧
    field (·.statusByte) (exec (.animateNone 0) legacyIdle) = some 0x08 ∧
    field (·.statusByte) (exec (.setFont 0 5) framedIdle) = some 0x0C := by decide
theorem test_V45_error_cleared :
    field (fun t => (t.err, t.statusByte)) (exec .clear { framedIdle with err := 1 }) = some (0, 0x01) := by decide
theorem test_V49_closed :
    field (fun t => (t.closed, t.statusByte)) (step (withInputs State.reset [{ close := true }])) = some (true, 0x02) ∧
    field (fun t => (t.report.cmd, t.busy)) (step (withInputs closedIdle [{ cmd := some { op := 8 } }])) =
      some (.refused, false) ∧
    field (fun t => (t.report.write, t.profile)) (step (withInputs closedIdle [{ reg := some (.write 0 0) }])) =
      some (.refused, .framed) ∧
    field (·.reads) (step (withInputs closedIdle [{ reg := some (.read 0) }])) =
      some [{ addr := 0, rdata := 0x01 }] := by decide
theorem test_V50_V55_reset :
    field (fun t => (t.closed, t.cmdReady)) (step (withInputs closedIdle [{ rst := true }])) = some (false, true) ∧
    field (fun t => (t.trace, t.busy, t.fb, t.idx))
      (step (withInputs twoSent [{ rst := true, outReady := true }])) =
      some ([{ byte := 0x55, last := false }, { byte := 0x4D, last := false }], false, [], 0) := by decide
theorem test_V52_V53_V54_registers :
    field (fun t => (t.profile, t.cfgByte)) (step (withInputs legacyIdle [{ reg := some (.write 0 0xFF) }])) =
      some (.framed, 0x01) ∧
    field (fun t => (t.statusByte, t.report.write)) (step (withInputs State.reset [{ reg := some (.write 1 0xFF) }])) =
      some (0x00, .taken) ∧
    field (·.reads) (step (withInputs State.reset [{ reg := some (.read 0x7F) }])) =
      some [{ addr := 0x7F, rdata := 0 }] := by decide
theorem test_P4_step_8_accept_before_cfg_write :
    field (fun t => (t.fb, t.profile, t.report.cmd, t.report.write))
      (step (withInputs State.reset [{ cmd := some { op := 1, a0 := 1 }, reg := some (.write 0 0) }])) =
      some ([0x55, 0x4D, 0x58, 2, 1, 1], .framed, .taken, .held) := by decide
theorem test_read_beside_emit_returns_the_state_before :
    field (fun t => (t.reads, t.busy))
      (step (withInputs lastByteLeft [{ reg := some (.read 1), outReady := true }])) =
      some ([{ addr := 1, rdata := 0x01 }], false) := by decide

/-! ### Front end: vectors V60 to V69. The names are the test's own, not the reference's (R87). -/

def testNames : CmdKind → Text
  | .setMode => ['m'] | .writeText => ['t'] | .setFont => ['f'] | .setColor => ['?'] | .animate => ['a']
  | .setPixel => ['p'] | .setRow => ['r'] | .clear => ['c'] | .outputEnable => ['e'] | .outputDisable => ['d']

/-- A front end whose text is the next word and which rejects extra arguments. -/
def testFront : FrontEndParams :=
  { otherName := testNames
    textWords := fun ws => match ws with
      | [] => none
      | w :: rest => some (w, rest)
    extraArgs := .reject }

theorem test_defaults_of_the_front_end :
    testFront.fontNameCasefold = false ∧ testFront.animNameBlink = ['b', 'l', 'i', 'n', 'k'] ∧
    testFront.animNameSlide = ['s', 'l', 'i', 'd', 'e'] := by decide

/-- What a line of these characters comes to under a profile. -/
def lineOf (P : Params) (p : Profile) (line : Text) : LineResult := readLine testFront P p line

theorem test_V60_font_names :
    fontCode testFront ['i', 'b', 'm'] = 2 ∧ fontCode testFront ['p', 'r', 'o'] = 1 ∧
    fontCode testFront ['c', 'o', 'm', 'i', 'c'] = 0 ∧ fontCode testFront [] = 0 := by decide
theorem test_V61_V62_font_case :
    fontCode testFront ['I', 'B', 'M'] = 0 ∧
    fontCode { testFront with fontNameCasefold := true } ['I', 'B', 'M'] = 2 := by decide
theorem test_V63_blink :
    lineOf Params.default .framed ['a', ' ', '3', ' ', 'b', 'l', 'i', 'n', 'k', ' ', '2', '0'] =
      .present { op := 5, a0 := 3, a1 := 1, a2 := 0x14 } := by decide
theorem test_V64_unrecognized_kind :
    lineOf Params.default .framed ['a', ' ', '3', ' ', 's', 'p', 'i', 'n'] =
      .present { op := 5, a0 := 3, a1 := 0 } := by decide
theorem test_V65_V66_numbers :
    lineOf Params.default .framed ['m', ' ', '2', '5', '6'] = .rejected .outOfRange ∧
    lineOf Params.default .framed ['m', ' ', 'a', 'b', 'c'] = .rejected .notNumeric ∧
    lineOf Params.default .framed ['m'] = .rejected .missingArgument := by decide
theorem test_V67_unrecognized_name :
    lineOf Params.default .framed ['q', 'u', 'i', 't'] = .closeRequest ∧
    lineOf Params.default .framed [] = .closeRequest := by decide
theorem test_V68_V69_text :
    lineOf Params.default .framed ['t', ' ', '0', ' ', 'H', 'i'] = .present { op := 2, data := [0x48, 0x69] } ∧
    lineOf Params.default .framed ['t', ' ', '0', ' ', 'é'] = .rejected .nonAscii := by decide
theorem test_W8_color_line :
    lineOf { Params.default with colorArgc := .five } .legacy
      ['c', 'o', 'l', 'o', 'r', ' ', '1', ' ', '2', '5', '5', ' ', '0', ' ', '1', '2', '8', ' ', '5', '0'] =
      .present { op := 4, a0 := 1, a1 := 255, a2 := 0, a3 := 128, a4 := 50 } ∧
    lineOf Params.default .legacy
      ['c', 'o', 'l', 'o', 'r', ' ', '1', ' ', '2', '5', '5', ' ', '0', ' ', '1', '2', '8', ' ', '5', '0'] =
      .rejected .extraArguments := by decide
theorem test_row_line :
    lineOf Params.default .framed ['r', ' ', '1', '\t', '2', ' ', ' ', '3'] =
      .present { op := 7, data := [1, 2, 3] } := by decide

/-- The phase, `CLOSED` and `BUSY` after one step of the loop. -/
def loopField (o : Outcome Session Fault Refusal) : Option (Phase × Bool × Bool) :=
  match o with
  | .next v => some (v.phase, v.block.closed, v.block.busy)
  | .fault _ => none
  | .refused _ => none

theorem test_session_opens_by_reset :
    loopField (Session.step testFront true (Session.start [] { closedIdle with busy := true })) =
      some (.reading, false, false) := by decide
theorem test_session_exit :
    (Session.exit { lines := [], phase := .draining, errors := [], block := clearInFlight }).phase = .closing ∧
    (Session.exit { lines := [], phase := .left, errors := [], block := closedIdle }).phase = .left := by decide
/-- A command held for a step and then taken is settled; one held and withdrawn is not, nor one still waiting. -/
theorem test_settled :
    settled [(some 1, .held), (some 1, .taken), (none, .absent)] = true ∧
    settled [(some 1, .held), (none, .absent)] = false ∧ settled [(some 1, .held)] = false ∧
    settled [(some 1, .refused)] = true := by decide
/-- A one-byte frame: accepted, sent, and the run has ended, with a reset still to come. -/
theorem test_run_ends :
    ∃ t, RunEnds (withInputs legacyIdle [{ cmd := some { op := 8 } }, { outReady := true }, { rst := true }]) 2 t :=
  ⟨_, rfl, rfl, by decide, by decide⟩

/-! ### Witnesses: states and operands that meet the hypotheses of each statement -/

theorem framedIdle_open : IdleOpen framedIdle := ⟨rfl, rfl⟩
theorem legacyIdle_open : IdleOpen legacyIdle := ⟨rfl, rfl⟩
theorem clearInFlight_inv : Inv clearInFlight := ⟨by decide, by decide, rfl, by decide, by decide⟩
theorem lastByteLeft_inv : Inv lastByteLeft := ⟨by decide, by decide, rfl, by decide, by decide⟩
theorem closedIdle_inv : Inv closedIdle := ⟨by decide, by decide, rfl, by decide, by decide⟩

theorem witness_SetModeQueuesItsFrame :
    framedIdle.params.wf ∧ IdleOpen framedIdle ∧ (⟨1, 0xFF, 0, 0, 0, 0, []⟩ : Descriptor).op = 1 :=
  ⟨by decide, framedIdle_open, rfl⟩
/-- Both sides of the limit: 253 and 254 bytes under Framed, 253 and 254 under a Legacy limit of 255. -/
theorem witness_WriteTextQueuesItsFrameOrIsTooLong :
    (IdleOpen framedIdle ∧ ¬ PayloadTooLong framedIdle.params framedIdle.profile (2 + 253) ∧
      PayloadTooLong framedIdle.params framedIdle.profile (2 + 254)) ∧
    (IdleOpen limitedIdle ∧ ¬ PayloadTooLong limitedIdle.params limitedIdle.profile (2 + 253) ∧
      PayloadTooLong limitedIdle.params limitedIdle.profile (2 + 254)) := by
  refine ⟨⟨⟨rfl, rfl⟩, ?_, ?_⟩, ⟨rfl, rfl⟩, ?_, 255, rfl, by decide⟩
  · show ¬ 255 < 255
    decide
  · show 255 < 256
    decide
  · rintro ⟨m, hm, hlt⟩
    cases hm
    exact absurd hlt (by decide)
theorem witness_SetFontQueuesItsFrameOrIsBadOperand :
    framedIdle.params.wf ∧ IdleOpen framedIdle ∧ (2 : Byte).toNat ≤ 2 ∧ 2 < (3 : Byte).toNat :=
  ⟨by decide, framedIdle_open, by decide, by decide⟩
theorem witness_SetColorQueuesItsFrame :
    (framedIdle.params.wf ∧ IdleOpen framedIdle ∧ framedIdle.params.colorArgc = .four) ∧
    (fiveIdle.params.wf ∧ IdleOpen fiveIdle ∧ fiveIdle.params.colorArgc = .five) :=
  ⟨⟨by decide, framedIdle_open, rfl⟩, by decide, ⟨rfl, rfl⟩, rfl⟩
theorem witness_AnimateQueuesItsFrameUnderFramed : IdleOpen framedIdle ∧ framedIdle.profile = .framed :=
  ⟨framedIdle_open, rfl⟩
theorem witness_AnimateDescriptorByKindAndProfile :
    (IdleOpen framedIdle ∧ framedIdle.profile = .framed) ∧ (IdleOpen legacyIdle ∧ legacyIdle.profile = .legacy) ∧
    2 < (3 : Byte).toNat ∧ 2 < (255 : Byte).toNat ∧ ({ op := 5, a1 := 2 } : Descriptor).op = 5 :=
  ⟨⟨framedIdle_open, rfl⟩, ⟨legacyIdle_open, rfl⟩, by decide, by decide, rfl⟩
theorem witness_SetPixelQueuesItsFrame :
    framedIdle.params.wf ∧ IdleOpen framedIdle ∧ ({ op := 6, a0 := 1 } : Descriptor).op = 6 :=
  ⟨by decide, framedIdle_open, rfl⟩
/-- Both sides of the limit: 254 and 255 values under Framed. -/
theorem witness_SetRowQueuesItsFrameOrIsTooLong :
    IdleOpen framedIdle ∧ ¬ PayloadTooLong framedIdle.params framedIdle.profile (1 + 254) ∧
      PayloadTooLong framedIdle.params framedIdle.profile (1 + 255) := by
  refine ⟨framedIdle_open, ?_, ?_⟩
  · show ¬ 255 < 255
    decide
  · show 255 < 256
    decide
theorem witness_OperandlessCommandsQueueTheirFrames :
    legacyIdle.params.wf ∧ IdleOpen legacyIdle ∧ ({ op := 10, a4 := 7 } : Descriptor).op = 10 :=
  ⟨by decide, legacyIdle_open, rfl⟩
theorem witness_UndefinedOpcodeIsBadOpcode :
    IdleOpen framedIdle ∧ ({ op := 0 } : Descriptor).op = 0 ∧ 10 < ({ op := 11 } : Descriptor).op.toNat :=
  ⟨framedIdle_open, rfl, by decide⟩
theorem witness_CommandIsNotTakenWhileBusyOrClosed : ¬ IdleOpen clearInFlight ∧ ¬ IdleOpen closedIdle := by
  constructor
  · exact fun h => absurd h.1 (by decide)
  · exact fun h => absurd h.2 (by decide)
/-- One descriptor for each clause: opcode 11; Animate under Legacy; font 3; a text of 254 bytes; Clear. -/
theorem witness_ErrorCodesAndTheirPriority :
    (legacyIdle.params.wf ∧ IdleOpen legacyIdle) ∧ 10 < (11 : Byte).toNat ∧
    (legacyIdle.profile = .legacy ∧ ¬ ((5 : Byte) = 0 ∨ 10 < (5 : Byte).toNat)) ∧
    (2 < (3 : Byte).toNat ∧ ¬ ((3 : Byte) = 0 ∨ 10 < (3 : Byte).toNat) ∧ (3 : Byte) ≠ 5) ∧
    PayloadTooLong framedIdle.params framedIdle.profile (2 + (List.replicate 254 (0 : Byte)).length) ∧
    ¬ ((8 : Byte) = 0 ∨ 10 < (8 : Byte).toNat) :=
  ⟨⟨by decide +kernel, legacyIdle_open⟩, by decide +kernel, ⟨rfl, by decide +kernel⟩, ⟨by decide +kernel, by decide +kernel, by decide +kernel⟩,
   show 255 < 2 + (List.replicate 254 (0 : Byte)).length by decide +kernel, by decide +kernel⟩
theorem witness_ErrorOutcomeIsPrecise :
    IdleOpen legacyIdle ∧ encodeFrame legacyIdle.params { op := 5 } legacyIdle.profile = .error .profile :=
  ⟨legacyIdle_open, by decide⟩
theorem witness_AcceptFollowsTheEncodeFunction : IdleOpen framedIdle := framedIdle_open
theorem witness_WrappingOfAPayload : (List.replicate 255 (0 : Byte)).length ≤ 255 := by decide +kernel
theorem witness_FramedLengthLimitIsExact :
    payload Params.default { op := 7, data := List.replicate 254 0 } = .ok (7 :: List.replicate 254 0) ∧
    (7 :: List.replicate 254 (0 : Byte)).length ≤ 255 ∧
    payload Params.default { op := 7, data := List.replicate 255 0 } = .ok (7 :: List.replicate 255 0) ∧
    255 < (7 :: List.replicate 255 (0 : Byte)).length := ⟨rfl, by decide +kernel, rfl, by decide +kernel⟩
theorem witness_LegacyLengthLimit :
    ({ op := 7, data := List.replicate 255 0 } : Descriptor).op ≠ 5 ∧
    payload limitedIdle.params { op := 7, data := List.replicate 255 0 } = .ok (7 :: List.replicate 255 0) ∧
    (∃ m, limitedIdle.params.legacyMaxPayload = some m ∧ m < (7 :: List.replicate 255 (0 : Byte)).length) ∧
    payload limitedIdle.params { op := 7, data := List.replicate 254 0 } = .ok (7 :: List.replicate 254 0) ∧
    ∀ m, limitedIdle.params.legacyMaxPayload = some m → (7 :: List.replicate 254 (0 : Byte)).length ≤ m :=
  ⟨by decide +kernel, rfl, ⟨255, rfl, by decide +kernel⟩, rfl, fun m hm => by cases hm; decide +kernel⟩
theorem witness_ProfileLaw :
    limitedIdle.params.wf ∧ encodeFrame limitedIdle.params { op := 8 } .framed = .ok [0x55, 0x4D, 0x58, 1, 8] :=
  ⟨by decide, by decide⟩
theorem witness_UnusedDescriptorFieldsAreIgnored :
    ({ op := 5, a1 := 0, a2 := 9 } : Descriptor).a1 = 0 ∧ 2 < ({ op := 5, a1 := 3 } : Descriptor).a1.toNat ∧
    framedIdle.params.colorArgc = .four ∧ fiveIdle.params.colorArgc = .five := ⟨rfl, by decide, rfl, rfl⟩
theorem witness_FrameDependsOnCommandAndProfileAlone :
    IdleOpen framedIdle ∧ IdleOpen { framedIdle with err := 3, fb := [1], flen := 1, idx := 1 } ∧
    field (·.fb) (presentCommand { op := 8 } framedIdle) =
      field (·.fb) (presentCommand { op := 8 } { framedIdle with err := 3, fb := [1], flen := 1, idx := 1 }) :=
  ⟨framedIdle_open, ⟨rfl, rfl⟩, by decide⟩
theorem witness_DecodeOfEncodedPayload :
    WellFormed Params.default (.setFont 0 2) = true ∧ WellFormed Params.default (.setColor 1 2 3 4 0) = true := by
  decide
theorem witness_DecodedPayloadIsItsEncoding : decodePayload Params.default [3, 0, 2] = .ok (.setFont 0 2) := by decide
theorem witness_QueuedFrameDecodesToItsCommand :
    IdleOpen framedIdle ∧
    Sendable framedIdle.params framedIdle.profile (.writeText 0 (List.replicate 253 0x41)) = true ∧
    Sendable legacyIdle.params legacyIdle.profile (.setPixel 1 2 3 4 5) = true :=
  ⟨framedIdle_open, by decide +kernel, by decide +kernel⟩
theorem witness_FramedStreamIsSelfDelimiting :
    1 ≤ (List.replicate 255 (0 : Byte)).length ∧ (List.replicate 255 (0 : Byte)).length ≤ 255 ∧
    1 ≤ ([8] : List Byte).length := by decide +kernel
theorem witness_ResetStepFromEveryState : (withInputs lastByteLeft [{ rst := true }]).presented.rst = true := rfl
theorem witness_StepRunsTheDecodedCommand :
    (withInputs framedIdle [{ cmd := some { op := 8 } }]).presented.rst = false ∧
    IdleOpen (withInputs framedIdle [{ cmd := some { op := 8 } }]) ∧
    (withInputs framedIdle [{ cmd := some { op := 8 } }]).presented.cmd = some { op := 8 } ∧
    decodeDescriptor { op := 8 } = .ok .clear ∧ decodeDescriptor { op := 0 } = .error (.badOpcode 0) :=
  ⟨rfl, ⟨rfl, rfl⟩, rfl, by decide, by decide⟩
theorem witness_FetchWordRunsNext :
    IdleOpen framedIdle ∧ decodeTableWord 24 0x050002 = some (.animateSlide 0 0 0) := ⟨framedIdle_open, by decide⟩
theorem witness_EmitSendsOneByteOrHoldsIt :
    Inv (withInputs lastByteLeft [{ outReady := true }]) ∧
    (withInputs lastByteLeft [{ outReady := true }]).presented.rst = false ∧
    (withInputs lastByteLeft [{ outReady := true }]).busy = true ∧
    (withInputs lastByteLeft [{ outReady := true }]).presented.outReady = true ∧
    (withInputs clearInFlight [{ outReady := false }]).presented.outReady = false :=
  ⟨⟨by decide, by decide, rfl, by decide, by decide⟩, rfl, rfl, rfl, rfl⟩
theorem witness_StalledBlockHoldsItsByte :
    clearInFlight.busy = true ∧ NoReset [{ cmd := some { op := 8 } }, { close := true }] ∧
    readyCount [{ cmd := some { op := 8 } }, { close := true }] = 0 :=
  ⟨rfl, by simp [NoReset], by decide⟩
/-- Five steps for the five bytes of `clearInFlight`, with a stalled one among them. -/
theorem witness_FrameInFlightLeavesWhole :
    Inv clearInFlight ∧ clearInFlight.busy = true ∧
    NoReset ([{ outReady := true }, { outReady := false }, { outReady := true }, { outReady := true }, { outReady := true }] ++
      [{ outReady := true }]) ∧
    readyCount [{ outReady := true }, { outReady := false }, { outReady := true }, { outReady := true }, { outReady := true }] =
      clearInFlight.flen - clearInFlight.idx - 1 :=
  ⟨clearInFlight_inv, rfl, by simp [NoReset], by decide⟩
theorem witness_EndMarkerOnTheLastByteAlone :
    0 < (marked [8]).length ∧ 4 < (marked [0x55, 0x4D, 0x58, 1, 8]).length ∧
    lastByteLeft.flen = lastByteLeft.fb.length ∧ lastByteLeft.busy = true ∧
    field (·.idx) (emit lastByteLeft) = some 5 := by decide
/-- The three requests presented with the last byte and again after it, one by one and together. -/
theorem witness_HeldCommandIsTakenAfterTheFrame :
    Inv lastByteLeft ∧ lastByteLeft.busy = true ∧ lastByteLeft.idx + 1 = lastByteLeft.flen ∧
    field (fun t => (t.report.cmd, t.presented.cmd, t.presented.rst))
      (step (withInputs lastByteLeft [{ cmd := some { op := 8 }, outReady := true }, { cmd := some { op := 8 } }])) =
      some (.held, some { op := 8 }, false) ∧
    field (fun t => (t.report.write, t.presented.reg, t.presented.cmd))
      (step (withInputs lastByteLeft
        [{ reg := some (.write 0 0), outReady := true }, { reg := some (.write 0 0) }])) =
      some (.held, some (.write 0 0), none) ∧
    field (fun t => (t.report.close, t.presented.close, t.presented.writes))
      (step (withInputs lastByteLeft [{ close := true, outReady := true }, { close := true }])) =
      some (.held, true, false) ∧
    field (fun t => (t.report.cmd, t.report.write, t.report.close))
      (step (withInputs lastByteLeft
        [{ cmd := some { op := 8 }, reg := some (.write 0 0), close := true, outReady := true }])) =
      some (.held, .held, .held) :=
  ⟨lastByteLeft_inv, rfl, rfl, by decide, by decide, by decide, by decide⟩
/-- A close request to an idle and open, to a busy and to a closed block. -/
theorem witness_CloseRequest :
    (withInputs framedIdle [{ close := true }]).presented.close = true ∧
    (withInputs framedIdle [{ close := true }]).presented.rst = false ∧
    IdleOpen (withInputs framedIdle [{ close := true }]) ∧
    (withInputs framedIdle [{ close := true }]).presented.writes = false ∧
    (withInputs clearInFlight [{ close := true }]).presented.close = true ∧
    (withInputs clearInFlight [{ close := true }]).busy = true ∧
    (withInputs clearInFlight [{ close := true }]).closed = false ∧
    (withInputs closedIdle [{ close := true }]).presented.close = true ∧
    (withInputs closedIdle [{ close := true }]).busy = false ∧
    (withInputs closedIdle [{ close := true }]).closed = true :=
  ⟨rfl, rfl, ⟨rfl, rfl⟩, rfl, rfl, rfl, rfl, rfl, rfl, rfl⟩
/-- A register write to an idle and open block, at address 0 and elsewhere, to a busy and to a closed block. -/
theorem witness_RegisterWrite :
    (withInputs framedIdle [{ reg := some (.write 0 0xFE) }]).presented.reg = some (.write 0 0xFE) ∧
    (withInputs framedIdle [{ reg := some (.write 0 0xFE) }]).presented.cmd = none ∧
    IdleOpen (withInputs framedIdle [{ reg := some (.write 1 1) }]) ∧ (1 : Byte) ≠ 0 ∧
    (withInputs clearInFlight [{ reg := some (.write 0 0) }]).presented.reg = some (.write 0 0) ∧
    (withInputs clearInFlight [{ reg := some (.write 0 0) }]).busy = true ∧
    (withInputs clearInFlight [{ reg := some (.write 0 0) }]).closed = false ∧
    (withInputs closedIdle [{ reg := some (.write 0 0) }]).presented.reg = some (.write 0 0) ∧
    (withInputs closedIdle [{ reg := some (.write 0 0) }]).busy = false ∧
    (withInputs closedIdle [{ reg := some (.write 0 0) }]).closed = true :=
  ⟨rfl, rfl, ⟨rfl, rfl⟩, by decide, rfl, rfl, rfl, rfl, rfl, rfl⟩
theorem witness_RegisterRead :
    (withInputs closedIdle [{ reg := some (.read 2) }]).presented.reg = some (.read 2) ∧
    field (·.reads) (step (withInputs closedIdle [{ reg := some (.read 2) }])) = some [{ addr := 2, rdata := 0 }] := by
  decide
/-- What each request comes to: command with a write, with a close, with both; write with a close; close alone. -/
theorem witness_OrderOfSimultaneousRequests :
    IdleOpen framedIdle ∧
    (withInputs framedIdle [{ cmd := some { op := 8 }, reg := some (.write 0 0) }]).beginStep.report =
      { cmd := .taken, write := .held } ∧
    (withInputs framedIdle [{ cmd := some { op := 8 }, close := true }]).beginStep.report =
      { cmd := .taken, close := .held } ∧
    (withInputs framedIdle [{ cmd := some { op := 8 }, reg := some (.write 0 0), close := true }]).beginStep.report =
      { cmd := .taken, write := .held, close := .held } ∧
    (withInputs framedIdle [{ reg := some (.write 0 0), close := true }]).beginStep.report =
      { write := .taken, close := .held } ∧
    (withInputs framedIdle [{ close := true }]).presented.writes = false ∧
    (withInputs framedIdle [{ close := true }]).beginStep.report = { close := .taken } :=
  ⟨framedIdle_open, by decide, by decide, by decide, by decide, by decide, by decide⟩
theorem witness_ClosedUntilReset :
    closedIdle.closed = true ∧ closedIdle.busy = false ∧
    NoReset [{ cmd := some { op := 8 } }, { reg := some (.write 0 0), close := true }] := ⟨rfl, rfl, by simp [NoReset]⟩
theorem witness_IdleBlockStaysAsItIs :
    framedIdle.busy = false ∧ framedIdle.presented = { outReady := false } ∧ (withInputs closedIdle [{ outReady := true }]).presented.cmd = none := by
  decide
theorem witness_EveryStepKeepsTheInvariants : Inv clearInFlight ∧ Inv closedIdle ∧ Inv State.reset :=
  ⟨clearInFlight_inv, closedIdle_inv, ⟨by decide, by decide, rfl, by decide, by decide⟩⟩
theorem witness_BufferHoldsOnlyLegalFrames :
    LegalBuffer framedIdle.params framedIdle.fb ∧ LegalBuffer clearInFlight.params clearInFlight.fb :=
  ⟨.inl rfl, .inr ⟨.framed, .clear, by decide, by decide⟩⟩
theorem witness_LineGrowsByWholeFrames :
    Inv framedIdle ∧ Inv lastByteLeft ∧
    field (fun t => (t.busy, t.presented.rst)) (step (withInputs framedIdle [{ cmd := some { op := 8 } }])) =
      some (true, false) ∧
    (withInputs framedIdle [{ cmd := some { op := 8 } }]).committed.length = 5 ∧
    (withInputs framedIdle [{ cmd := some { op := 0 } }]).committed = [] ∧
    field (·.busy) (step (withInputs lastByteLeft [{ outReady := true }])) = some false :=
  ⟨⟨by decide, by decide, rfl, by decide, by decide⟩, lastByteLeft_inv, by decide, by decide, by decide, by decide⟩
theorem witness_ClosedChangesOnlyByCloseOrReset :
    field (·.closed) (step (withInputs framedIdle [{ close := true }])) = some true ∧ framedIdle.closed = false ∧
    field (·.closed) (step (withInputs closedIdle [{ rst := true }])) = some false ∧ closedIdle.closed = true := by
  decide
theorem witness_ErrChangesOnlyByAcceptOrReset :
    field (·.err) (step (withInputs framedIdle [{ cmd := some { op := 0 } }])) = some 1 ∧
    (withInputs framedIdle [{ cmd := some { op := 0 } }]).grant = .command { op := 0 } ∧
    field (·.err) (step (withInputs framedIdle [{ close := true }])) = some framedIdle.err ∧
    (withInputs framedIdle [{ close := true }]).grant = .close := by decide
theorem witness_BusyChangesOnlyByAcceptEmitOrReset :
    field (·.busy) (step (withInputs framedIdle [{ cmd := some { op := 8 } }])) = some true ∧
    framedIdle.busy = false ∧
    field (·.busy) (step (withInputs lastByteLeft [{ outReady := true }])) = some false ∧
    field (·.busy) (step (withInputs clearInFlight [{ rst := true }])) = some false ∧
    lastByteLeft.busy = true ∧ clearInFlight.busy = true := by decide
theorem witness_ProfileAndFrameInFlightAreStable :
    field (·.profile) (step (withInputs framedIdle [{ reg := some (.write 0 0) }])) = some .legacy ∧
    framedIdle.profile = .framed ∧
    field (·.profile) (step (withInputs clearInFlight [{ reg := some (.write 0 0) }])) = some clearInFlight.profile ∧
    clearInFlight.busy = true := by decide
theorem witness_LengthAndIndexWriters :
    field (fun t => (t.flen, t.idx)) (step (withInputs framedIdle [{ cmd := some { op := 8 } }])) = some (5, 0) ∧
    field (fun t => (t.flen, t.idx)) (step (withInputs lastByteLeft [{ outReady := true }])) = some (5, 5) ∧
    field (fun t => (t.flen, t.idx)) (step (withInputs lastByteLeft [{ outReady := false }])) = some (5, 4) := by decide
theorem witness_ParametersAreFixedAndRecordsGrow :
    field (fun t => (t.trace.length, t.reads.length))
      (step (withInputs lastByteLeft [{ outReady := true, reg := some (.read 1) }])) =
      some (lastByteLeft.trace.length + 1, lastByteLeft.reads.length + 1) := by decide
theorem witness_FontNameReachesTheLine : limitedIdle.params.wf ∧ IdleOpen limitedIdle := ⟨by decide, rfl, rfl⟩
theorem witness_NameCodesFallBackToZero : testFront.animNameBlink ≠ testFront.animNameSlide := by decide
theorem witness_NumericArgumentIsNeverReduced :
    decimal ['2', '5', '5'] = some 255 ∧ decimal ['2', '5', '6'] = some 256 := by decide
theorem witness_TextIsAsciiBytes :
    (∀ c ∈ (['A', 'B'] : Text), c.toNat ≤ 127) ∧ (∃ c ∈ (['é'] : Text), 127 < c.toNat) :=
  ⟨by simp, 'é', by simp, by simp⟩
/-- A loop in this phase over this block, with these lines to come. -/
def loopAt (lines : List Text) (phase : Phase) (block : State) : Session :=
  { lines := lines, phase := phase, errors := [], block := block }

theorem witness_UnrecognizedNameCloses :
    splitWords ([] : Text) = [] ∧ splitWords ['q', ' ', '1'] = [['q'], ['1']] ∧ (∀ k, testFront.cmdName k ≠ ['q']) ∧
    loopField (Session.step testFront true (loopAt [['q', ' ', '1']] .reading framedIdle)) =
      some (.closing, false, false) ∧
    Inv clearInFlight ∧ clearInFlight.busy = true ∧
    loopField (Session.step testFront true (loopAt [] .closing clearInFlight)) = some (.closing, false, true) ∧
    IdleOpen framedIdle ∧
    loopField (Session.step testFront true (loopAt [] .closing framedIdle)) = some (.left, true, false) ∧
    loopField (Session.step testFront true (loopAt [] .left closedIdle)) = some (.left, true, false) :=
  ⟨by decide, by decide, fun k => by cases k <;> decide, by decide, clearInFlight_inv, rfl, by decide, framedIdle_open,
   by decide, by decide⟩
theorem witness_PresentedLineFitsItsFrame :
    readLine testFront Params.default .framed ['c'] = .present { op := 8 } := by decide
theorem witness_RejectedLineLeavesTheBlock :
    readLine testFront framedIdle.params framedIdle.profile ['m', ' ', '2', '5', '6'] = .rejected .outOfRange ∧
    readLine testFront framedIdle.params framedIdle.profile ['c'] = .present { op := 8 } ∧
    Inv clearInFlight ∧ ¬ IdleOpen clearInFlight ∧
    loopField (Session.step testFront true (loopAt [] (.presenting { op := 8 }) clearInFlight)) =
      some (.presenting { op := 8 }, false, true) ∧
    IdleOpen framedIdle ∧
    loopField (Session.step testFront true (loopAt [] (.presenting { op := 8 }) framedIdle)) =
      some (.draining, false, true) ∧
    loopField (Session.step testFront false (loopAt [['c']] .draining lastByteLeft)) = some (.draining, false, true) ∧
    Inv lastByteLeft ∧
    loopField (Session.step testFront true (loopAt [['c']] .draining lastByteLeft)) = some (.reading, false, false) :=
  ⟨by decide, by decide, clearInFlight_inv, by simp [IdleOpen, clearInFlight], by decide, framedIdle_open, by decide,
   by decide, lastByteLeft_inv, by decide⟩

end Sys2Proof.Tests
end

section
/-! SUPPORT. What an ACCEPT leaves, in terms of the spec's encode function, and the kinds of step with their whole
effect, said once for every statement about the writers of the state. -/

namespace Sys2Proof.Machine

open Host (Outcome)

/-! ### ACCEPT follows the encode function -/

/-- What a presented descriptor gives to ACCEPT: its command's payload, or its error. -/
def descriptorPayload (P : Params) (p : Profile) (d : Descriptor) : Except ErrCode (List Byte) :=
  match decodeDescriptor d with
  | .ok i => instrPayload P p i
  | .error e => .error (descriptorError p e)

theorem presentCommand_eq_descriptorPayload (d : Descriptor) (s : State) :
    presentCommand d s = presentPayload (descriptorPayload s.params s.profile d) s := by
  rw [presentCommand_eq_presentPayload, descriptorPayload]
  cases decodeDescriptor d <;> rfl

theorem descriptorPayload_badOpcode (P : Params) (p : Profile) {d : Descriptor} (h : d.op = 0 ∨ 10 < d.op.toNat) :
    descriptorPayload P p d = .error .badOpcode := by
  simp [descriptorPayload, decodeDescriptor_badOpcode h, descriptorError]

/-- R146: under Legacy every opcode-5 descriptor is `PROFILE`, those with a reserved kind too. -/
theorem descriptorPayload_animate_legacy (P : Params) {d : Descriptor} (h : d.op = 5) :
    descriptorPayload P .legacy d = .error .profile := by
  rcases kind_cases d.a1 with hk | hk | hk | hk
  case inr.inr.inr => simp [descriptorPayload, decodeDescriptor_badKind h hk, descriptorError]
  all_goals simp [descriptorPayload, decodeDescriptor, h, hk, instrPayload, needsFramed]

/-- R114: under Framed the three kinds have their payloads and every other kind is `BAD_OPERAND`. -/
theorem descriptorPayload_animate_framed (P : Params) {d : Descriptor} (h : d.op = 5) :
    descriptorPayload P .framed d = payload P d := by
  rcases kind_cases d.a1 with hk | hk | hk | hk
  case inr.inr.inr =>
    simp only [descriptorPayload, decodeDescriptor_badKind h hk, descriptorError, payload, h]
    simp
    split <;> first | omega | rfl
  all_goals simp [descriptorPayload, decodeDescriptor, payload, h, hk, instrPayload, needsFramed]

/-- Past the first two checks of R143, the block's path to a payload is the spec's payload function. -/
theorem descriptorPayload_of_defined (P : Params) (p : Profile) {d : Descriptor}
    (hop : ¬ (d.op = 0 ∨ 10 < d.op.toNat)) (h5 : ¬ (d.op = 5 ∧ p = .legacy)) :
    descriptorPayload P p d = payload P d := by
  rcases opcode_cases d.op with h | h | h | h | h | h | h | h | h | h | h
  case inr.inr.inr.inr.inr.inr.inr.inr.inr.inr => exact absurd h hop
  case inr.inr.inr.inr.inl =>
    cases p with
    | legacy => exact absurd ⟨h, rfl⟩ h5
    | framed => exact descriptorPayload_animate_framed P h
  case inr.inr.inr.inl =>
    cases hc : P.colorArgc <;> simp [descriptorPayload, decodeDescriptor, payload, h, hc, instrPayload, encode]
  all_goals simp [descriptorPayload, decodeDescriptor, payload, h, instrPayload, encode, checkFont]

/-- R143, R162: the machine's own path to a frame is the spec's encode function. -/
theorem frameResult_descriptorPayload (P : Params) (p : Profile) (d : Descriptor) :
    frameResult P p (descriptorPayload P p d) = encodeFrame P d p := by
  by_cases hop : d.op = 0 ∨ 10 < d.op.toNat
  · rw [descriptorPayload_badOpcode P p hop, encodeFrame_badOpcode P p hop, frameResult_error]
  · by_cases h5 : d.op = 5 ∧ p = .legacy
    · obtain ⟨hd, rfl⟩ := h5
      rw [descriptorPayload_animate_legacy P hd, encodeFrame_animate_legacy P hd, frameResult_error]
    · rw [descriptorPayload_of_defined P p hop h5, encodeFrame_of_defined P p hop h5]

/-- R162: ACCEPT of an idle and open block takes the result of the encode function. -/
theorem presentCommand_of_idle {s : State} (h : IdleOpen s) (d : Descriptor) :
    presentCommand d s = .next (s.takeResult (encodeFrame s.params d s.profile)) := by
  rw [presentCommand_eq_descriptorPayload, presentPayload_of_idle h, frameResult_descriptorPayload]

/-! ### The kinds of step -/

/-- What a step can do, one constructor a kind of step, each with its guard and the whole state it leaves
(42_controller.md R160 to R172, 70_reset_and_hazards.md R240). -/
inductive StepEffect (s : State) : State → Prop where
  /-- R240: reset -/
  | reset (hr : s.presented.rst = true) : StepEffect s s.takeReset
  /-- R164: EMIT -/
  | emit {b : OutTransfer} (hr : s.presented.rst = false) (hg : s.grant = .nothing) (hb : s.busy = true)
      (ho : s.presented.outReady = true) (hf : s.frontByte = some b) : StepEffect s (s.beginStep.emitByte b)
  /-- R162: ACCEPT of a command that has a frame -/
  | accept {d : Descriptor} {frame : List Byte} (hr : s.presented.rst = false) (hg : s.grant = .command d)
      (hi : IdleOpen s) (he : encodeFrame s.params d s.profile = .ok frame) : StepEffect s (s.beginStep.loadFrame frame)
  /-- R162, R213: ACCEPT of a command that ends in an error -/
  | reject {d : Descriptor} {e : ErrCode} (hr : s.presented.rst = false) (hg : s.grant = .command d)
      (hi : IdleOpen s) (he : encodeFrame s.params d s.profile = .error e) : StepEffect s (s.beginStep.takeError e)
  /-- R168: REGWRITE -/
  | write {addr data : Byte} (hr : s.presented.rst = false) (hg : s.grant = .regWrite addr data) (hi : IdleOpen s) :
      StepEffect s (s.beginStep.regWrite addr data)
  /-- R167: CLOSE -/
  | close (hr : s.presented.rst = false) (hg : s.grant = .close) (hi : IdleOpen s) : StepEffect s s.beginStep.takeClose
  /-- R172: no request is taken and no byte leaves -/
  | stay (hr : s.presented.rst = false) (hg : s.grant = .nothing)
      (hn : ¬ (s.busy = true ∧ s.presented.outReady = true)) : StepEffect s s.beginStep

theorem stepEffect_takeResult {s : State} {d : Descriptor} (hr : s.presented.rst = false)
    (hg : s.grant = .command d) (hi : IdleOpen s) :
    StepEffect s (s.beginStep.takeResult (encodeFrame s.params d s.profile)) := by
  cases he : encodeFrame s.params d s.profile with
  | ok frame => exact .accept hr hg hi he
  | error e => exact .reject hr hg hi he

/-- A step that answers a next state is of one of these kinds. -/
theorem stepEffect_of_step {s t : State} (h : step s = .next t) : StepEffect s t := by
  obtain ⟨hr, rfl⟩ | ⟨hr, hb, hg, ⟨ho, rfl⟩ | ⟨ho, b, hf, rfl⟩⟩ |
    ⟨hr, hb, ⟨d, hg, hi, hd⟩ | ⟨addr, data, hg, hi, rfl⟩ | ⟨hg, hi, rfl⟩ | ⟨hg, rfl⟩⟩ := step_cases h
  · exact .reset hr
  · exact .stay hr hg (by simp [ho])
  · exact .emit hr hg hb ho hf
  · rw [presentCommand_of_idle ((idleOpen_beginStep s).2 hi)] at hd
    obtain rfl := Outcome.next.inj hd
    exact stepEffect_takeResult hr hg hi
  · exact .write hr hg hi
  · exact .close hr hg hi
  · exact .stay hr hg (by simp [hb])

/-! ### R34 is kept by each update -/

theorem inv_beginStep {s : State} (h : Inv s) : Inv s.beginStep :=
  ⟨h.busy_iff, h.idx_le, h.flen_eq, h.closed_idle, h.err_le⟩

theorem inv_takeReset (s : State) : Inv s.takeReset := ⟨by simp, by simp, by simp, by simp, by simp [errNone]⟩

theorem errCode_le (e : ErrCode) : e.code.toNat ≤ 4 := by cases e <;> decide

theorem inv_takeError {s : State} (h : Inv s) (e : ErrCode) : Inv (s.takeError e) :=
  ⟨h.busy_iff, h.idx_le, h.flen_eq, h.closed_idle, errCode_le e⟩

/-- The block is open where a frame is queued, and a frame holds at least one byte (R32). -/
theorem inv_loadFrame {s : State} {frame : List Byte} (hc : s.closed = false) (hpos : 1 ≤ frame.length) :
    Inv (s.loadFrame frame) where
  busy_iff := by simp; omega
  idx_le := by simp
  flen_eq := rfl
  closed_idle := by simp [hc]
  err_le := by simp [errNone]

/-- An EMIT advances `IDX` within the frame, and `BUSY` falls exactly where `IDX` reaches `FLEN` (R33, R164). -/
theorem inv_emitByte {s : State} (h : Inv s) (hb : s.busy = true) (b : OutTransfer) : Inv (s.emitByte b) := by
  have hlt : s.idx < s.flen := h.busy_iff.1 hb
  refine ⟨?_, hlt, h.flen_eq, fun hc => ?_, h.err_le⟩
  · rw [emitByte_busy, emitByte_idx, emitByte_flen, hb]
    split <;> simp <;> omega
  · simp [h.closed_idle hc] at hb

/-- A close request is taken of an idle block alone (R167). -/
theorem inv_takeClose {s : State} (h : Inv s) (hb : s.busy = false) : Inv s.takeClose :=
  ⟨h.busy_iff, h.idx_le, h.flen_eq, fun _ => hb, h.err_le⟩

theorem inv_regWrite {s : State} (h : Inv s) (addr data : Byte) : Inv (s.regWrite addr data) := by
  unfold State.regWrite
  split
  · exact ⟨h.busy_iff, h.idx_le, h.flen_eq, h.closed_idle, h.err_le⟩
  · exact h

theorem inv_of_stepEffect {s t : State} (hs : Inv s) (h : StepEffect s t) : Inv t := by
  have hbegin := inv_beginStep hs
  cases h with
  | reset => exact inv_takeReset s
  | emit _ _ hb => exact inv_emitByte hbegin hb _
  | accept _ _ hi he => exact inv_loadFrame hi.2 (encodeFrame_length_pos he)
  | reject => exact inv_takeError hbegin _
  | write => exact inv_regWrite hbegin _ _
  | close _ _ hi => exact inv_takeClose hbegin hi.1
  | stay => exact hbegin

/-- An idle and open block answers every request with a next state. -/
theorem serve_next {s : State} (h : IdleOpen s) (g : Grant) : ∃ t, serve g s = .next t := by
  cases g with
  | command d => exact ⟨_, presentCommand_of_idle h d⟩
  | regWrite addr data => exact ⟨_, rfl⟩
  | close => exact ⟨_, rfl⟩
  | nothing => exact ⟨_, rfl⟩

/-- No step of a state that meets R34 stops: the one fault needs a busy block without a byte at `IDX`. -/
theorem step_next_of_inv {s : State} (h : Inv s) : ∃ t, step s = .next t := by
  cases hr : s.presented.rst with
  | true => exact ⟨_, step_of_reset hr⟩
  | false =>
    by_cases hg : s.grant = .nothing
    · obtain ⟨_, _, b, _, hstep⟩ | ⟨_, hstep⟩ := step_of_grant_nothing h hr hg
      · exact ⟨_, hstep⟩
      · exact ⟨_, hstep⟩
    · have hi := idleOpen_of_grant hg
      rw [step_of_not_busy hr hi.1]
      exact serve_next ((idleOpen_beginStep s).2 hi) _

/-! ### The word of the opcode table that is presented -/

theorem decodeDescriptor_of_decodeTableWord {nbits w : Nat} {i : Instr} (h : decodeTableWord nbits w = some i) :
    decodeDescriptor (descriptorOfBytes (tableBytes nbits w)) = .ok i := by
  unfold decodeTableWord at h
  cases hd : decodeDescriptor (descriptorOfBytes (tableBytes nbits w)) <;> simp_all [Except.toOption]

/-! ### The register bytes (R169) -/

theorem cfgByte_toNat (s : State) : s.cfgByte.toNat = if s.profile = .framed then 1 else 0 := by
  unfold State.cfgByte
  cases s.profile <;> rfl

/-- The bits of `STATUS` from the least: `BUSY`, `CLOSED`, then `ERR`. -/
theorem statusByte_getLsbD (s : State) (k : Nat) :
    s.statusByte.getLsbD k = if k = 0 then s.busy else if k = 1 then s.closed else s.err.getLsbD (k - 2) := by
  simp only [State.statusByte, BitVec.getLsbD_setWidth, BitVec.getLsbD_append, BitVec.getLsbD_ofBool]
  rcases k with _ | _ | k
  · simp
  · simp
  · by_cases hk : k < 3
    · simp; omega
    · simp [BitVec.getLsbD_of_ge s.err k (by omega)]

end Sys2Proof.Machine
end

section
/-! SUPPORT. The statements of 10_state.md. -/

namespace Sys2Proof.Machine

open Host (Outcome)

/-- Settles O45: a step of such a state answers, and each kind of step keeps R34. -/
theorem everyStepKeepsTheInvariants : Obligations.EveryStepKeepsTheInvariants := by
  intro s hs
  obtain ⟨t, ht⟩ := step_next_of_inv hs
  exact ⟨t, ht, inv_of_stepEffect hs (stepEffect_of_step ht)⟩

/-- Settles O20: both states take the same result of the encode function, and a result that is an error leaves an idle
block idle. -/
theorem frameDependsOnCommandAndProfileAlone : Obligations.FrameDependsOnCommandAndProfileAlone := by
  intro s s' t t' d hs hs' hprofile hparams ht ht'
  rw [presentCommand_of_idle hs] at ht
  rw [presentCommand_of_idle hs', ← hprofile, ← hparams] at ht'
  obtain rfl := Outcome.next.inj ht
  obtain rfl := Outcome.next.inj ht'
  cases encodeFrame s.params d s.profile with
  | ok frame => simp [State.takeResult]
  | error e => simp [State.takeResult, hs.1, hs'.1]

/-- Settles O48: only `takeReset` and `takeClose` write `CLOSED`. -/
theorem closedChangesOnlyByCloseOrReset : Obligations.ClosedChangesOnlyByCloseOrReset := by
  intro s t h hne
  cases stepEffect_of_step h with
  | reset hr => exact .inl ⟨hr, rfl⟩
  | close _ hg => exact .inr ⟨hg, rfl⟩
  | write => simp at hne
  | emit | accept | reject | stay => exact absurd rfl hne

/-- Settles O49: an ACCEPT records the code of its encoding, and no other step without reset writes `ERR`. -/
theorem errChangesOnlyByAcceptOrReset : Obligations.ErrChangesOnlyByAcceptOrReset := by
  intro s t h hr
  cases stepEffect_of_step h with
  | reset hr' => simp [hr] at hr'
  | accept _ hg _ he =>
    refine ⟨fun d' hd => ?_, fun hn => absurd hg (hn _)⟩
    obtain rfl := Grant.command.inj (hg.symm.trans hd)
    simp [he, errNone]
  | reject _ hg _ he =>
    refine ⟨fun d' hd => ?_, fun hn => absurd hg (hn _)⟩
    obtain rfl := Grant.command.inj (hg.symm.trans hd)
    simp [he]
  | emit _ hg | write _ hg | close _ hg | stay _ hg => simp [hg]

/-- Settles O50: `loadFrame` sets `BUSY`; `emitByte` at the last byte and `takeReset` clear it; no other update
writes it. -/
theorem busyChangesOnlyByAcceptEmitOrReset : Obligations.BusyChangesOnlyByAcceptEmitOrReset := by
  intro s t h hne
  cases stepEffect_of_step h with
  | reset hr => exact .inr (.inr ⟨rfl, hr⟩)
  | accept _ hg _ he => exact .inl ⟨rfl, _, _, hg, he⟩
  | emit _ _ _ ho =>
    have hlast : s.idx + 1 = s.flen := by
      by_contra hn
      simp [hn] at hne
    exact .inr (.inl ⟨by simp [hlast], ho, hlast, by simp⟩)
  | write => simp at hne
  | reject | close | stay => exact absurd rfl hne

/-- Settles O51: only `regWrite` at address 0 writes the profile and only `loadFrame` the buffer, and a busy block is
granted neither. -/
theorem profileAndFrameInFlightAreStable : Obligations.ProfileAndFrameInFlightAreStable := by
  intro s t h hr
  cases stepEffect_of_step h with
  | reset hr' => simp [hr] at hr'
  | accept _ _ hi => exact ⟨fun hne => absurd rfl hne, fun hb => by simp [hi.1] at hb⟩
  | @write addr data _ hg hi =>
    refine ⟨fun hne => ⟨data, ?_⟩, fun hb => by simp [hi.1] at hb⟩
    have haddr : addr = 0 := by
      by_contra hn
      exact hne (by rw [regWrite_profile, if_neg hn, beginStep_profile])
    rw [hg, haddr]
  | emit | reject | close | stay => exact ⟨fun hne => absurd rfl hne, fun _ => ⟨rfl, rfl, rfl⟩⟩

/-- Settles O52: of the steps without reset only a successful ACCEPT writes `FLEN`, and only it and EMIT write `IDX`. -/
theorem lengthAndIndexWriters : Obligations.LengthAndIndexWriters := by
  intro s t h hr
  cases stepEffect_of_step h with
  | reset hr' => simp [hr] at hr'
  | accept _ hg _ he =>
    refine ⟨fun d' frame' hd hf => ?_, fun hn => absurd he (hn _ _ hg)⟩
    obtain rfl := Grant.command.inj (hg.symm.trans hd)
    obtain rfl := Except.ok.inj (he.symm.trans hf)
    exact ⟨rfl, encodeFrame_length_pos he, rfl⟩
  | reject _ hg hi he =>
    refine ⟨fun d' frame' hd hf => ?_, fun _ => by simp [hi.1]⟩
    obtain rfl := Grant.command.inj (hg.symm.trans hd)
    simp [he] at hf
  | emit _ hg hb ho => simp [hg, hb, ho]
  | write _ hg hi | close _ hg hi => simp [hg, hi.1]
  | stay _ hg hn => exact ⟨by simp [hg], fun _ => ⟨rfl, (if_neg hn).symm⟩⟩

/-- Settles O53: no update writes the parameters; the inputs and the reads change in `beginStep` and `takeReset` alone,
and the trace in `emitByte` alone. -/
theorem parametersAreFixedAndRecordsGrow : Obligations.ParametersAreFixedAndRecordsGrow := by
  intro s t h
  cases stepEffect_of_step h with
  | reset => exact ⟨rfl, rfl, List.prefix_rfl, List.prefix_rfl, Nat.le_succ _⟩
  | emit => exact ⟨rfl, rfl, List.prefix_append _ _, List.prefix_append _ _, by simp⟩
  | write => simp
  | accept | reject | close | stay =>
    exact ⟨rfl, rfl, List.prefix_rfl, List.prefix_append _ _, Nat.le_succ _⟩

/-- Settles O27: every signal is computed in the reset state. -/
theorem resetStateValues : Obligations.ResetStateValues :=
  ⟨rfl, rfl, rfl, rfl, rfl, rfl, rfl, rfl, rfl, rfl, rfl, rfl, fun _ _ => rfl⟩

/-- Settles O30: the presented descriptor is granted, and it decodes to `i`. -/
theorem fetchWordRunsNext : Obligations.FetchWordRunsNext := by
  intro s nbits w i hi hw
  have hgrant : (s.withFetchWord nbits w).grant = .command (descriptorOfBytes (tableBytes nbits w)) :=
    grant_command (s := s.withFetchWord nbits w) hi rfl
  refine ⟨?_, ⟨rfl, rfl, rfl, rfl, rfl, rfl, rfl⟩, rfl⟩
  rw [step_of_not_busy (s := s.withFetchWord nbits w) rfl hi.1, hgrant]
  exact presentCommand_of_ok _ (decodeDescriptor_of_decodeTableWord hw)

/-- Settles O39: each bit is read off the concatenation of R169. -/
theorem registerBits : Obligations.RegisterBits := by
  intro s
  refine ⟨cfgByte_toNat s, ?_, ?_, fun k _ => ?_, fun k hk => ?_⟩ <;> rw [statusByte_getLsbD]
  · rfl
  · rfl
  · rw [if_neg (by omega), if_neg (by omega), Nat.add_sub_cancel_left]
  · rw [if_neg (by omega), if_neg (by omega)]
    exact BitVec.getLsbD_of_ge _ _ (by omega)

/-- Settles O40: the ready signals are one formula, and R34 gives a busy block its byte at `IDX`. -/
theorem readyAndValidSignals : Obligations.ReadyAndValidSignals := by
  intro s
  have hready : (!s.busy && !s.closed) = true ↔ s.busy = false ∧ s.closed = false := cmdReady_iff s
  refine ⟨hready, hready, fun _ => rfl, fun _ _ => hready, rfl, fun hb => ?_, fun hs hb => ?_⟩
  · simp [State.outPort, State.outValid, hb]
  · obtain ⟨b, hbyte, hfront⟩ := hs.frontByte hb
    have hlt : s.idx < s.flen := hs.busy_iff.1 hb
    have hlast : s.idx + 1 = s.flen ↔ s.idx = s.flen - 1 := by omega
    exact ⟨b, hbyte, by simp [State.outPort, State.outValid, hb, hfront, hlast]⟩

/-- Settles O44: nothing is in flight after reset, and the default limit is unbounded. -/
theorem resetMeetsTheInvariants : Obligations.ResetMeetsTheInvariants :=
  ⟨⟨by decide, by decide, rfl, by decide, by decide⟩, by decide⟩

end Sys2Proof.Machine
end

section
/-! SUPPORT. The line of 20_memory.md R58: what each kind of step adds to it, and how the frame in flight leaves. -/

namespace Sys2Proof.Machine

/-! ### The line -/

/-- R37, R165: the byte at the output and its mark are the entry `IDX` of the marked frame. -/
theorem frontByte_eq_marked_getElem? {s : State} (h : s.flen = s.fb.length) :
    s.frontByte = (marked s.fb)[s.idx]? := by
  rw [marked_getElem?, State.frontByte, h]

theorem line_of_busy {s : State} (hb : s.busy = true) : s.line = s.trace ++ (marked s.fb).drop s.idx := by
  simp [State.line, hb]

theorem line_of_not_busy {s : State} (hb : s.busy = false) : s.line = s.trace := by simp [State.line, hb]

theorem Inv.not_busy_iff {s : State} (h : Inv s) : s.busy = false ↔ s.idx = s.flen := by
  rw [← Bool.not_eq_true, h.busy_iff]
  have := h.idx_le
  omega

/-- Under R34 the frame has nothing left to send where the block is idle, so the line is one formula. -/
theorem Inv.line_eq {s : State} (h : Inv s) : s.line = s.trace ++ (marked s.fb).drop s.idx := by
  cases hb : s.busy with
  | true => exact line_of_busy hb
  | false =>
    have hdone : s.idx = (marked s.fb).length := by rw [h.not_busy_iff.1 hb, h.flen_eq, marked_length]
    simp [line_of_not_busy hb, hdone]

@[simp] theorem line_beginStep (s : State) : s.beginStep.line = s.line := rfl

/-- EMIT moves the byte at the output from what is still to leave to what has left. -/
theorem line_emitByte {s : State} (h : Inv s) (hb : s.busy = true) {b : OutTransfer} (hf : s.frontByte = some b) :
    (s.emitByte b).line = s.line := by
  rw [frontByte_eq_marked_getElem? h.flen_eq] at hf
  obtain ⟨hlt, rfl⟩ := List.getElem?_eq_some_iff.1 hf
  rw [(inv_emitByte h hb _).line_eq, h.line_eq, List.drop_eq_getElem_cons hlt]
  simp

/-- An idle block that takes a frame has the whole of it still to send. -/
theorem line_loadFrame {s : State} (hb : s.busy = false) (frame : List Byte) :
    (s.loadFrame frame).line = s.line ++ marked frame := by
  rw [line_of_busy (loadFrame_busy s frame), line_of_not_busy hb]
  rfl

@[simp] theorem line_regWrite (s : State) (addr data : Byte) : (s.regWrite addr data).line = s.line := by
  simp [State.line]

theorem committed_of_ok {s : State} {d : Descriptor} {frame : List Byte} (hg : s.grant = .command d)
    (he : encodeFrame s.params d s.profile = .ok frame) : s.committed = marked frame := by
  simp [State.committed, hg, he]

theorem committed_of_error {s : State} {d : Descriptor} {e : ErrCode} (hg : s.grant = .command d)
    (he : encodeFrame s.params d s.profile = .error e) : s.committed = [] := by
  simp [State.committed, hg, he]

theorem committed_of_no_command {s : State} (hg : ∀ d, s.grant ≠ .command d) : s.committed = [] := by
  unfold State.committed
  split
  · next d hd => exact absurd hd (hg d)
  · rfl

/-! ### A busy block over many steps -/

/-- `t` is `s` after `n` more bytes of the frame in flight have left, and nothing else of the block has changed. -/
structure Sends (n : Nat) (s t : State) : Prop where
  line    : t.line = s.line
  idx     : t.idx = s.idx + n
  fb      : t.fb = s.fb
  flen    : t.flen = s.flen
  profile : t.profile = s.profile
  closed  : t.closed = s.closed
  err     : t.err = s.err

theorem sends_zero (s : State) : Sends 0 s s := ⟨rfl, rfl, rfl, rfl, rfl, rfl, rfl⟩

theorem sends_trans {m n : Nat} {s t u : State} (h : Sends m s t) (h' : Sends n t u) : Sends (m + n) s u :=
  ⟨h'.line.trans h.line, by rw [h'.idx, h.idx, Nat.add_assoc], h'.fb.trans h.fb, h'.flen.trans h.flen,
   h'.profile.trans h.profile, h'.closed.trans h.closed, h'.err.trans h.err⟩

/-- A step of a busy block sends one byte where `out_ready = 1`, and none else (R164, R172). -/
theorem step_sends {s : State} (h : Inv s) (hb : s.busy = true) (hr : s.presented.rst = false) :
    ∃ t, step s = .next t ∧ Inv t ∧ t.inputs = s.inputs.tail ∧ Sends s.presented.outReady.toNat s t := by
  have hg : s.grant = .nothing := grant_of_not_idle fun hi => by simp [hi.1] at hb
  obtain ⟨_, ho, b, hf, hstep⟩ | ⟨hn, hstep⟩ := step_of_grant_nothing h hr hg
  · refine ⟨_, hstep, inv_emitByte (inv_beginStep h) hb b, rfl, ?_⟩
    rw [ho]
    exact ⟨line_emitByte (inv_beginStep h) hb hf, rfl, rfl, rfl, rfl, rfl, rfl⟩
  · have ho : s.presented.outReady = false := by simpa [hb] using hn
    refine ⟨_, hstep, inv_beginStep h, rfl, ?_⟩
    rw [ho]
    exact ⟨rfl, rfl, rfl, rfl, rfl, rfl, rfl⟩

theorem readyCount_cons (i : Inputs) (ins : List Inputs) :
    readyCount (i :: ins) = i.outReady.toNat + readyCount ins := by
  simp only [readyCount, List.countP_cons]
  cases i.outReady <;> simp [Nat.add_comm]

/-- While fewer bytes are asked for than remain, a busy block stays busy and sends exactly as many. -/
theorem run_sends {ins rest : List Inputs} {s : State} (h : Inv s) (hins : s.inputs = ins ++ rest) (hr : NoReset ins)
    (hcount : s.idx + readyCount ins < s.flen) :
    ∃ t, run ins.length s = .next t ∧ Inv t ∧ t.inputs = rest ∧ Sends (readyCount ins) s t := by
  induction ins generalizing s with
  | nil => exact ⟨s, rfl, h, hins, sends_zero s⟩
  | cons i ins ih =>
    obtain ⟨hri, hrins⟩ := List.forall_mem_cons.1 hr
    rw [readyCount_cons] at hcount ⊢
    have hp : s.presented = i := presented_of_inputs hins
    obtain ⟨t, hstep, ht, htail, hsend⟩ := step_sends h (h.busy_iff.2 (by omega)) (hp ▸ hri)
    rw [hp] at hsend
    have hlt : t.idx + readyCount ins < t.flen := by rw [hsend.idx, hsend.flen]; omega
    obtain ⟨u, hrun, hu, hrest, hsends⟩ := ih ht (by rw [htail, hins]; rfl) hrins hlt
    exact ⟨u, (run_succ hstep).trans hrun, hu, hrest, sends_trans hsend hsends⟩

end Sys2Proof.Machine
end

section
/-! SUPPORT. The statements of 20_memory.md. -/

namespace Sys2Proof.Machine

/-- Settles O47: `loadFrame` puts the whole frame on the line, `emitByte` moves its first byte to the trace, and no
other step without reset writes the trace or the frame in flight. -/
theorem lineGrowsByWholeFrames : Obligations.LineGrowsByWholeFrames := by
  intro s t hs hr h
  cases stepEffect_of_step h with
  | reset hr' => simp [hr] at hr'
  | emit _ hg hb _ hf =>
    rw [committed_of_no_command (by simp [hg]), List.append_nil, line_emitByte (inv_beginStep hs) hb hf, line_beginStep]
  | accept _ hg hi he =>
    rw [committed_of_ok hg he, line_loadFrame (s := s.beginStep) hi.1, line_beginStep]
  | reject _ hg _ he =>
    rw [committed_of_error hg he, List.append_nil]
    rfl
  | write _ hg =>
    rw [committed_of_no_command (by simp [hg]), List.append_nil, line_regWrite, line_beginStep]
  | close _ hg | stay _ hg =>
    rw [committed_of_no_command (by simp [hg]), List.append_nil]
    rfl

/-- Settles O33: all bytes but one leave over `ins` and the last with `final`; then `IDX = FLEN`, so the block is idle
and its line, which has not changed, is its trace. -/
theorem frameInFlightLeavesWhole : Obligations.FrameInFlightLeavesWhole := by
  intro ins rest final s hs hb hins hr hcount hfinal
  obtain ⟨hrins, hrfinal⟩ := List.forall_mem_append.1 hr
  have hlt : s.idx < s.flen := hs.busy_iff.1 hb
  obtain ⟨t, hrun, ht, hrest, hsends⟩ := run_sends hs hins hrins (by omega)
  have hp : t.presented = final := presented_of_inputs hrest
  have htb : t.busy = true := ht.busy_iff.2 (by rw [hsends.idx, hsends.flen]; omega)
  obtain ⟨u, hstep, hu, htail, hlast⟩ := step_sends ht htb (hp ▸ hrfinal final (by simp))
  rw [hp, hfinal] at hlast
  have hall := sends_trans hsends hlast
  have hidx : u.idx = u.flen := by rw [hall.idx, hall.flen, hcount, Bool.toNat_true]; omega
  have hidle : u.busy = false := hu.not_busy_iff.2 hidx
  have htrace : u.trace = s.trace ++ (marked s.fb).drop s.idx := by
    rw [← line_of_not_busy hidle, hall.line, line_of_busy hb]
  have hinputs : u.inputs = rest := by rw [htail, hrest, List.tail_cons]
  have hrunAll : run (ins.length + 1) s = .next u := by rw [run_add hrun, run_succ hstep, run_zero]
  exact ⟨u, hrunAll, htrace, hidle, hidx, hall.fb, hall.flen, hall.profile, hall.closed, hall.err, hinputs⟩

end Sys2Proof.Machine
end

section
/-! SUPPORT. Payload and frame of a command, read back: the decoder and the encoder are inverse to each other on
well-formed commands, and what the block queues is the frame of such a command. -/

namespace Sys2Proof

/-! ### The payload decoder on an encoding -/

/-- R82: every operand is read back, at every value. -/
theorem decodePayload_encode {P : Params} {i : Instr} (h : WellFormed P i = true) :
    decodePayload P (encode P i) = .ok i := by
  cases i with
  | setFont col font =>
    have hfont : font.toNat ≤ 2 := of_decide_eq_true h
    simp [encode, decodePayload, decodeFont, hfont]
  | setColor o0 o1 o2 o3 o4 =>
    cases hc : P.colorArgc with
    | four =>
      have hunused : o4 = 0 := by simpa [WellFormed, hc] using h
      simp [encode, decodePayload, decodeColor, hc, hunused]
    | five => simp [encode, decodePayload, decodeColor, hc]
  | _ => rfl

/-! ### What the payload decoder accepts -/

theorem decodePayload_badOpcode (P : Params) {op : Byte} (operands : List Byte) (h : op = 0 ∨ 10 < op.toNat) :
    decodePayload P (op :: operands) = .error (.badOpcode op) := by
  have := toNat_of_undefined h
  simp only [decodePayload]
  split
  case h_11 => rfl
  all_goals omega

/-- R77: a SetFont payload holds a column and a font code of 0, 1 or 2. -/
theorem decodeFont_eq_ok {P : Params} {operands : List Byte} {i : Instr} (h : decodeFont operands = .ok i) :
    WellFormed P i = true ∧ encode P i = 0x03 :: operands := by
  unfold decodeFont at h
  split at h
  · split at h
    · next hfont =>
      cases h
      exact ⟨decide_eq_true hfont, rfl⟩
    · cases h
  · cases h

/-- R75: a SetColor payload holds exactly `COLOR_ARGC` operands. -/
theorem decodeColor_eq_ok {P : Params} {operands : List Byte} {i : Instr}
    (h : decodeColor P.colorArgc operands = .ok i) : WellFormed P i = true ∧ encode P i = 0x04 :: operands := by
  unfold decodeColor at h
  split at h
  · next hc =>
    cases h
    simp [WellFormed, encode, hc]
  · next hc =>
    cases h
    simp [WellFormed, encode, hc]
  · cases h

/-- R78: an Animate payload holds a column, a kind of 0, 1 or 2 and what the kind adds. -/
theorem decodeAnimate_eq_ok {P : Params} {operands : List Byte} {i : Instr} (h : decodeAnimate operands = .ok i) :
    WellFormed P i = true ∧ encode P i = 0x05 :: operands := by
  unfold decodeAnimate at h
  split at h
  · next col kind more =>
    split at h
    case h_4 => split at h <;> cases h
    all_goals next hk =>
      cases h
      exact ⟨rfl, by rw [(toNat_eq_iff (by decide)).1 hk]; rfl⟩
  · cases h

/-- R80, R82: what decodes is the encoding of the well-formed command it decodes to. -/
theorem decodePayload_eq_ok {P : Params} {bytes : List Byte} {i : Instr} (h : decodePayload P bytes = .ok i) :
    WellFormed P i = true ∧ encode P i = bytes := by
  cases bytes with
  | nil => cases h
  | cons op operands =>
    rcases opcode_cases op with rfl | rfl | rfl | rfl | rfl | rfl | rfl | rfl | rfl | rfl | hbad
    case inr.inr.inl => exact decodeFont_eq_ok h
    case inr.inr.inr.inl => exact decodeColor_eq_ok h
    case inr.inr.inr.inr.inl => exact decodeAnimate_eq_ok h
    case inr.inr.inr.inr.inr.inr.inl =>
      cases h
      exact ⟨rfl, rfl⟩
    case inr.inr.inr.inr.inr.inr.inr.inr.inr.inr =>
      rw [decodePayload_badOpcode P operands hbad] at h
      cases h
    -- The rows with a fixed number of operands: a list of another length is an error.
    all_goals
      simp only [decodePayload, BitVec.reduceToNat] at h
      split at h <;> cases h
      exact ⟨rfl, rfl⟩

/-! ### The frame -/

/-- R81: the length byte of a frame is exact, so it marks the frame's end. -/
theorem readFramed_wrap_append {bytes : List Byte} (rest : List Byte) (hpos : 1 ≤ bytes.length)
    (hle : bytes.length ≤ 255) : readFramed (wrap .framed bytes ++ rest) = some (bytes, rest) := by
  have hlen := lengthByte_toNat hle
  have hne : bytes.length ≠ 0 := by omega
  rw [wrap_framed]
  simp [readFramed, magic, -BitVec.toNat_ofNat, hlen, hne]

/-- R79, R144, R145: what it takes for a profile to send a command. -/
theorem sendable_iff {P : Params} {p : Profile} {i : Instr} :
    Sendable P p i = true ↔
      WellFormed P i = true ∧ (i.framedOnly = true → p = .framed) ∧ P.fits p (encode P i).length = true := by
  rw [encode_length]
  cases hf : i.framedOnly <;> simp [Sendable, hf, and_assoc]

/-- R82: the frame of a command that the profile can send is read as that command. -/
theorem decodeFrame_wrap_encode {P : Params} {p : Profile} {i : Instr} (h : Sendable P p i = true) :
    decodeFrame P p (wrap p (encode P i)) = some i := by
  obtain ⟨hwf, hprofile, hfits⟩ := sendable_iff.1 h
  have hdecode := decodePayload_encode hwf
  cases p with
  | legacy =>
    have hf : i.framedOnly = false := Bool.eq_false_iff.2 fun hf => nomatch hprofile hf
    exact (decodeFrame_legacy_eq_some P _ i).2 ⟨hdecode, hf⟩
  | framed =>
    have hread : readFramed (wrap .framed (encode P i)) = some (encode P i, []) := by
      simpa using readFramed_wrap_append [] (List.length_pos_iff.2 (encode_ne_nil P i)) (of_decide_eq_true hfits)
    exact (decodeFrame_framed_eq_some P _ i).2 ⟨_, hread, hdecode⟩

namespace Machine

/-! ### The machine's path to a frame -/

/-- A command that the profile can send is none of its errors. -/
theorem instrPayload_of_sendable {P : Params} {p : Profile} {i : Instr} (h : Sendable P p i = true) :
    instrPayload P p i = .ok (encode P i) := by
  obtain ⟨hwf, hprofile, _⟩ := sendable_iff.1 h
  cases i with
  | setFont col font =>
    have hfont : ¬ font.toNat > 2 := Nat.not_lt.2 (of_decide_eq_true hwf)
    exact if_neg hfont
  | animateNone | animateBlink | animateSlide =>
    rw [hprofile rfl]
    rfl
  | _ => rfl

/-- A command that the profile can send is queued (R162). -/
theorem exec_of_sendable {s : State} {i : Instr} (hs : IdleOpen s) (h : Sendable s.params s.profile i = true) :
    exec i s = .next (s.queued (encode s.params i)) := by
  rw [exec_eq_presentPayload, instrPayload_of_sendable h]
  exact presentPayload_queued hs (sendable_iff.1 h).2.2

/-- The term whose fifth SetColor field is the 0 of an unused field under `COLOR_ARGC` 4 (R113, log 12). Every other
command has no such field. -/
def clearUnused (P : Params) : Instr → Instr
  | .setColor o0 o1 o2 o3 o4 => .setColor o0 o1 o2 o3 (if P.colorArgc = .four then 0 else o4)
  | i => i

theorem encode_clearUnused (P : Params) (i : Instr) : encode P (clearUnused P i) = encode P i := by
  cases i with
  | setColor => cases hc : P.colorArgc <;> simp [clearUnused, encode, hc]
  | _ => rfl

theorem framedOnly_clearUnused (P : Params) (i : Instr) : (clearUnused P i).framedOnly = i.framedOnly := by
  cases i <;> rfl

/-- The font code is the one operand that can make a command ill-formed once the unused field is clear. -/
theorem wellFormed_clearUnused (P : Params) {i : Instr}
    (hfont : ∀ col font, i = .setFont col font → font.toNat ≤ 2) : WellFormed P (clearUnused P i) = true := by
  cases i with
  | setFont col font => exact decide_eq_true (hfont col font rfl)
  | setColor => cases hc : P.colorArgc <;> simp [clearUnused, WellFormed, hc]
  | _ => rfl

/-- R80: a frame that the encode function forms is that of a command the profile can send. -/
theorem sendable_of_encodeFrame {P : Params} {p : Profile} {d : Descriptor} {frame : List Byte}
    (h : encodeFrame P d p = .ok frame) : ∃ i, Sendable P p i = true ∧ frame = wrap p (encode P i) := by
  rw [← frameResult_descriptorPayload] at h
  obtain ⟨bytes, hbytes, hfits, rfl⟩ := frameResult_eq_ok h
  unfold descriptorPayload at hbytes
  split at hbytes
  · next i _ =>
    obtain ⟨rfl, hprofile, hfont⟩ := instrPayload_eq_ok hbytes
    rw [← encode_clearUnused P i] at hfits ⊢
    exact ⟨clearUnused P i, sendable_iff.2 ⟨wellFormed_clearUnused P hfont,
      framedOnly_clearUnused P i ▸ hprofile, hfits⟩, rfl⟩
  · cases hbytes

/-! ### Descriptors with the same payload -/

/-- What a descriptor gives to ACCEPT is all that its outcome depends on. -/
theorem presentCommand_congr {s : State} {d d' : Descriptor}
    (h : descriptorPayload s.params s.profile d = descriptorPayload s.params s.profile d') :
    presentCommand d s = presentCommand d' s := by
  rw [presentCommand_eq_descriptorPayload, presentCommand_eq_descriptorPayload, h]

/-- Two descriptors that decode alike have the same outcome. -/
theorem presentCommand_congr_decode {d d' : Descriptor} (s : State) (h : decodeDescriptor d = decodeDescriptor d') :
    presentCommand d s = presentCommand d' s := by
  rw [presentCommand, presentCommand, h]

end Machine

end Sys2Proof
end

section
/-! SUPPORT. The statements of 30_encoding.md. -/

namespace Sys2Proof.Machine

/-- Settles O21: by the rows of R75. -/
theorem decodeOfEncodedPayload : Obligations.DecodeOfEncodedPayload :=
  fun _ _ => decodePayload_encode

/-- Settles O22: by the opcode, with the font code, the colour operands and the kind each read by a decoder of its
own. -/
theorem decodedPayloadIsItsEncoding : Obligations.DecodedPayloadIsItsEncoding :=
  fun _ _ _ => decodePayload_eq_ok

/-- Settles O24: the length byte is exact up to 255. -/
theorem framedStreamIsSelfDelimiting : Obligations.FramedStreamIsSelfDelimiting :=
  fun _ rest => readFramed_wrap_append rest

/-- Settles O23: the ACCEPT queues the frame of the command's encoding, and a receiver reads the command from it. -/
theorem queuedFrameDecodesToItsCommand : Obligations.QueuedFrameDecodesToItsCommand :=
  fun _ _ hs h => ⟨_, exec_of_sendable hs h, rfl, rfl, decodeFrame_wrap_encode h⟩

/-- Settles O46: only ACCEPT and reset write the buffer, and an ACCEPT leaves there what the encode function forms. -/
theorem bufferHoldsOnlyLegalFrames : Obligations.BufferHoldsOnlyLegalFrames := by
  intro s t h hs
  cases stepEffect_of_step h with
  | reset => exact .inl rfl
  | accept _ _ _ he =>
    obtain ⟨i, hsend, hframe⟩ := sendable_of_encodeFrame he
    exact .inr ⟨s.profile, i, hsend, hframe⟩
  | write => simpa using hs
  | emit | reject | close | stay => exact hs

/-- Settles O19: the descriptors of each row decode alike, but for SetColor under `COLOR_ARGC` 4, where the two terms
have the same payload. -/
theorem unusedDescriptorFieldsAreIgnored : Obligations.UnusedDescriptorFieldsAreIgnored := by
  intro s d
  refine ⟨fun h => ?setMode, fun h => ?writeText, fun h => ?setFont, fun h hc => ?setColorFour,
    fun h hc => ?setColorFive, fun h hk => ?animateNoneOrReserved, fun h hk => ?animateBlink, fun h hk => ?animateSlide,
    fun h => ?setPixel, fun h => ?setRow, fun h => ?opcodeAlone⟩
  case setColorFour =>
    apply presentCommand_congr
    simp [descriptorPayload, decodeDescriptor, instrPayload, encode, h, hc]
  all_goals apply presentCommand_congr_decode
  case animateNoneOrReserved =>
    rcases hk with hk | hk
    · simp [decodeDescriptor, h, hk]
    · rw [decodeDescriptor_badKind h hk]
      exact (decodeDescriptor_badKind (d := { op := 5, a0 := d.a0, a1 := d.a1 }) rfl hk).symm
  case animateBlink | animateSlide => simp [decodeDescriptor, h, hk]
  case opcodeAlone =>
    rcases h with h | h | h | h
    case inr.inr.inr =>
      rw [decodeDescriptor_badOpcode h]
      exact (decodeDescriptor_badOpcode (d := { op := d.op }) h).symm
    all_goals simp [decodeDescriptor, h]
  all_goals simp [decodeDescriptor, h]

/-- Settles O25: by the rows of R84. -/
theorem decodeOfEncodedDescriptor : Obligations.DecodeOfEncodedDescriptor := by
  intro i
  cases i <;> rfl

/-- Settles O26: the decoders are run on each word. -/
theorem sampleWordsDecode : Obligations.SampleWordsDecode :=
  ⟨by decide, by decide, by decide, by decide, by decide, by decide⟩

end Sys2Proof.Machine
end

section
/-! SUPPORT. The outcome of a command by its payload: queued, too long, or an error of the command's own; and that of
a presented descriptor that is an error. -/

namespace Sys2Proof.Machine

theorem payloadTooLong_framed_iff (P : Params) (n : Nat) : PayloadTooLong P .framed n ↔ 255 < n := Iff.rfl

/-- R162: a command without an error of its own is queued where its payload is not too long. -/
theorem exec_of_not_tooLong {s : State} {i : Instr} (hs : IdleOpen s)
    (hpayload : instrPayload s.params s.profile i = .ok (encode s.params i))
    (hlen : ¬ PayloadTooLong s.params s.profile (i.payloadLength s.params)) :
    exec i s = .next (s.queued (encode s.params i)) := by
  rw [← encode_length, ← fits_iff_not_tooLong] at hlen
  rw [exec_eq_presentPayload, hpayload, presentPayload_queued hs hlen]

/-- R144, R145: where it is too long the command is `TOO_LONG`. -/
theorem exec_of_tooLong {s : State} {i : Instr} (hs : IdleOpen s)
    (hpayload : instrPayload s.params s.profile i = .ok (encode s.params i))
    (hlen : PayloadTooLong s.params s.profile (i.payloadLength s.params)) :
    exec i s = .next { s with err := 4 } := by
  have hfits : s.params.fits s.profile (encode s.params i).length = false := by
    rw [encode_length, Bool.eq_false_iff, ne_eq, fits_iff_not_tooLong]
    exact not_not_intro hlen
  rw [exec_eq_presentPayload, hpayload, presentPayload_tooLong hs hfits]

/-- R148: a payload of at most 255 bytes is too long under neither profile. -/
theorem exec_of_short {s : State} {i : Instr} (hP : s.params.wf) (hs : IdleOpen s)
    (hpayload : instrPayload s.params s.profile i = .ok (encode s.params i))
    (hlen : i.payloadLength s.params ≤ 255) : exec i s = .next (s.queued (encode s.params i)) :=
  exec_of_not_tooLong hs hpayload ((fits_iff_not_tooLong _ _ _).1 (fits_of_short hP s.profile hlen))

/-- R79, R114: Framed sends every kind of Animate. -/
theorem exec_of_framedOnly {s : State} {i : Instr} (hs : IdleOpen s) (hprofile : s.profile = .framed)
    (hi : i.framedOnly = true) : exec i s = .next (s.queued (encode s.params i)) := by
  apply exec_of_sendable hs
  rw [hprofile]
  cases i with
  | animateNone | animateBlink | animateSlide => rfl
  | _ => cases hi

theorem presentCommand_of_framedOnly {s : State} {d : Descriptor} {i : Instr} (hs : IdleOpen s)
    (hprofile : s.profile = .framed) (hdecode : decodeDescriptor d = .ok i) (hi : i.framedOnly = true) :
    presentCommand d s = .next (s.queued (encode s.params i)) := by
  rw [presentCommand_of_ok s hdecode, exec_of_framedOnly hs hprofile hi]

/-- R213: an error of the command's own is recorded and nothing else changes. -/
theorem exec_of_error {s : State} {i : Instr} {e : ErrCode} (hs : IdleOpen s)
    (hpayload : instrPayload s.params s.profile i = .error e) : exec i s = .next { s with err := e.code } := by
  rw [exec_eq_presentPayload, hpayload, presentPayload_error hs]

/-- R213: so is the error of a presented descriptor. -/
theorem presentCommand_of_payload_error {s : State} {d : Descriptor} {e : ErrCode} (hs : IdleOpen s)
    (hpayload : descriptorPayload s.params s.profile d = .error e) :
    presentCommand d s = .next { s with err := e.code } := by
  rw [presentCommand_eq_descriptorPayload, hpayload, presentPayload_error hs]

/-- R114: a reserved kind of Animate is `BAD_OPERAND` under Framed. -/
theorem descriptorPayload_badKind_framed (P : Params) {d : Descriptor} (hop : d.op = 5) (hkind : 2 < d.a1.toNat) :
    descriptorPayload P .framed d = .error .badOperand := by
  rw [descriptorPayload, decodeDescriptor_badKind hop hkind]
  rfl

end Sys2Proof.Machine
end

section
/-! SUPPORT. The statements of 40_payload_commands.md. -/

namespace Sys2Proof.Machine

/-- Settles O1: two bytes fit under both profiles. -/
theorem setModeQueuesItsFrame : Obligations.SetModeQueuesItsFrame := by
  intro s mode hP hs
  refine ⟨exec_of_short hP hs rfl (by simp [Instr.payloadLength]), fun d hop hmode => ?_⟩
  exact presentCommand_of_ok s (by simp [decodeDescriptor, hop, hmode])

/-- Settles O2: the length limit alone decides, whatever the text bytes. -/
theorem writeTextQueuesItsFrameOrIsTooLong : Obligations.WriteTextQueuesItsFrameOrIsTooLong := by
  intro s col text hs
  refine ⟨fun hlen => exec_of_not_tooLong hs rfl hlen, fun hlen => exec_of_tooLong hs rfl hlen, fun hprofile => ?_,
    fun d hop hcol htext => ?_⟩
  · rw [hprofile, payloadTooLong_framed_iff]
    omega
  · exact presentCommand_of_ok s (by simp [decodeDescriptor, hop, hcol, htext])

/-- Settles O3: the check of the font code comes before the wrapping. -/
theorem setFontQueuesItsFrameOrIsBadOperand : Obligations.SetFontQueuesItsFrameOrIsBadOperand := by
  intro s col font hP hs
  refine ⟨fun hfont => ?_, fun hfont => ?_, fun d hop hcol hfont => ?_⟩
  · exact exec_of_short hP hs (if_neg (Nat.not_lt.2 hfont)) (by simp [Instr.payloadLength])
  · exact exec_of_error (e := .badOperand) hs (if_pos hfont)
  · exact presentCommand_of_ok s (by simp [decodeDescriptor, hop, hcol, hfont])

/-- Settles O4: the encoding takes the first `COLOR_ARGC` operands, and is short for both values. -/
theorem setColorQueuesItsFrame : Obligations.SetColorQueuesItsFrame := by
  intro s o0 o1 o2 o3 o4 hP hs
  have hlen : (Instr.setColor o0 o1 o2 o3 o4).payloadLength s.params ≤ 255 := by
    cases hc : s.params.colorArgc <;> simp [Instr.payloadLength, ColorArgc.count, hc]
  have hqueued := exec_of_short hP hs rfl hlen
  refine ⟨fun hc => ?_, fun hc => ?_, fun d hop h0 h1 h2 h3 h4 => ?_⟩
  · simpa [encode, hc] using hqueued
  · simpa [encode, hc] using hqueued
  · exact presentCommand_of_ok s (by simp [decodeDescriptor, hop, h0, h1, h2, h3, h4])

/-- Settles O5: Framed sends each of the three kinds. -/
theorem animateQueuesItsFrameUnderFramed : Obligations.AnimateQueuesItsFrameUnderFramed :=
  fun _ _ _ _ hs hprofile => ⟨exec_of_framedOnly hs hprofile rfl, exec_of_framedOnly hs hprofile rfl,
    exec_of_framedOnly hs hprofile rfl⟩

/-- Settles O6: under Framed the kind selects the command or the error; under Legacy the profile check comes first. -/
theorem animateDescriptorByKindAndProfile : Obligations.AnimateDescriptorByKindAndProfile := by
  intro s d hs hop
  refine ⟨fun hp hk => ?none, fun hp hk => ?blink, fun hp hk => ?slide, fun hp hk => ?reserved, fun hp => ?legacy⟩
  case none =>
    exact presentCommand_of_framedOnly (i := .animateNone d.a0) hs hp (by simp [decodeDescriptor, hop, hk]) rfl
  case blink =>
    exact presentCommand_of_framedOnly (i := .animateBlink d.a0 d.a2) hs hp (by simp [decodeDescriptor, hop, hk]) rfl
  case slide =>
    exact presentCommand_of_framedOnly (i := .animateSlide d.a0 d.a2 d.a3) hs hp
      (by simp [decodeDescriptor, hop, hk]) rfl
  case reserved => exact presentCommand_of_payload_error hs (hp ▸ descriptorPayload_badKind_framed s.params hop hk)
  case legacy => exact presentCommand_of_payload_error hs (hp ▸ descriptorPayload_animate_legacy s.params hop)

/-- Settles O7: no operand is checked and six bytes fit under both profiles. -/
theorem setPixelQueuesItsFrame : Obligations.SetPixelQueuesItsFrame := by
  intro s x y w h st hP hs
  refine ⟨exec_of_short hP hs rfl (by simp [Instr.payloadLength]), fun d hop h0 h1 h2 h3 h4 => ?_⟩
  exact presentCommand_of_ok s (by simp [decodeDescriptor, hop, h0, h1, h2, h3, h4])

/-- Settles O8: the length limit alone decides. -/
theorem setRowQueuesItsFrameOrIsTooLong : Obligations.SetRowQueuesItsFrameOrIsTooLong := by
  intro s values hs
  refine ⟨fun hlen => exec_of_not_tooLong hs rfl hlen, fun hlen => exec_of_tooLong hs rfl hlen, fun hprofile => ?_,
    fun d hop hvalues => ?_⟩
  · rw [hprofile, payloadTooLong_framed_iff]
    omega
  · exact presentCommand_of_ok s (by simp [decodeDescriptor, hop, hvalues])

/-- Settles O9: one byte fits under both profiles, and the opcode alone decides the command. -/
theorem operandlessCommandsQueueTheirFrames : Obligations.OperandlessCommandsQueueTheirFrames := by
  intro s hP hs
  refine ⟨?clear, ?enable, ?disable, fun d => ⟨fun hop => ?_, fun hop => ?_, fun hop => ?_⟩⟩
  case clear | enable | disable => exact exec_of_short hP hs rfl (by simp [Instr.payloadLength])
  all_goals exact presentCommand_of_ok s (by simp [decodeDescriptor, hop])

/-- Settles O10: no row of R84 decodes such a descriptor. -/
theorem undefinedOpcodeIsBadOpcode : Obligations.UndefinedOpcodeIsBadOpcode :=
  fun s _ hs hop => ⟨payload_badOpcode s.params hop,
    presentCommand_of_payload_error hs (descriptorPayload_badOpcode s.params s.profile hop)⟩

end Sys2Proof.Machine
end

section
/-! SUPPORT. The encode function by the payload and its length, and the two ends of a wrapped payload. -/

namespace Sys2Proof.Machine

/-! ### The encode function of a payload -/

/-- R143: but for the profile check, the encode function is the length check and the wrapping of the payload. -/
theorem encodeFrame_eq_frameResult (P : Params) {p : Profile} {d : Descriptor} (h5 : ¬ (d.op = 5 ∧ p = .legacy)) :
    encodeFrame P d p = frameResult P p (payload P d) := by
  by_cases hop : d.op = 0 ∨ 10 < d.op.toNat
  · rw [encodeFrame_badOpcode P p hop, payload_badOpcode P hop, frameResult_error]
  · exact encodeFrame_of_defined P p hop h5

/-- R144, R145: a payload that is not too long is sent whole. -/
theorem encodeFrame_of_not_tooLong {P : Params} {p : Profile} {d : Descriptor} {bytes : List Byte}
    (h5 : ¬ (d.op = 5 ∧ p = .legacy)) (hbytes : payload P d = .ok bytes)
    (hlen : ¬ PayloadTooLong P p bytes.length) : encodeFrame P d p = .ok (wrap p bytes) := by
  rw [encodeFrame_eq_frameResult P h5, hbytes, frameResult_ok ((fits_iff_not_tooLong P p _).2 hlen)]

/-- R144, R145: one that is too long is `TOO_LONG`. -/
theorem encodeFrame_of_tooLong {P : Params} {p : Profile} {d : Descriptor} {bytes : List Byte}
    (h5 : ¬ (d.op = 5 ∧ p = .legacy)) (hbytes : payload P d = .ok bytes)
    (hlen : PayloadTooLong P p bytes.length) : encodeFrame P d p = .error .tooLong := by
  have hfits : P.fits p bytes.length = false :=
    Bool.eq_false_iff.2 fun hfits => (fits_iff_not_tooLong P p _).1 hfits hlen
  rw [encodeFrame_eq_frameResult P h5, hbytes, frameResult_tooLong hfits]

/-- The profile check of R146 is not made under Framed. -/
theorem not_animate_legacy_of_framed (d : Descriptor) : ¬ (d.op = 5 ∧ Profile.framed = .legacy) :=
  fun h => nomatch h.2

/-- A Framed frame is the wrapping of a payload of at most 255 bytes. -/
theorem encodeFrame_framed_eq_ok {P : Params} {d : Descriptor} {frame : List Byte}
    (h : encodeFrame P d .framed = .ok frame) :
    ∃ bytes, payload P d = .ok bytes ∧ bytes.length ≤ 255 ∧ frame = wrap .framed bytes := by
  rw [encodeFrame_eq_frameResult P (not_animate_legacy_of_framed d)] at h
  obtain ⟨bytes, hbytes, hfits, hframe⟩ := frameResult_eq_ok h
  exact ⟨bytes, hbytes, Nat.not_lt.1 ((fits_iff_not_tooLong P .framed _).1 hfits), hframe⟩

/-- R75: the rows other than WriteText and SetRow have payloads of at most six bytes. -/
theorem payload_length_le_six {P : Params} {d : Descriptor} {bytes : List Byte} (h : payload P d = .ok bytes)
    (htext : d.op ≠ 2) (hrow : d.op ≠ 7) : bytes.length ≤ 6 := by
  rcases opcode_cases d.op with hop | hop | hop | hop | hop | hop | hop | hop | hop | hop | hop
  case inr.inl => exact absurd hop htext
  case inr.inr.inr.inr.inr.inr.inl => exact absurd hop hrow
  case inr.inr.inr.inr.inr.inr.inr.inr.inr.inr =>
    rw [payload_badOpcode P hop] at h
    cases h
  -- The fixed rows: each branch of the payload function writes its bytes out.
  all_goals
    simp only [payload, hop, BitVec.reduceToNat] at h
    repeat' split at h
  all_goals cases h <;> simp

/-! ### The two ends of a wrapped payload -/

/-- R142, R150: up to 255 bytes the length byte of a Framed wrapping is exact. -/
theorem wrap_framed_exact {bytes : List Byte} (h : bytes.length ≤ 255) :
    ∃ len : Byte, len.toNat = bytes.length ∧ wrap .framed bytes = [0x55, 0x4D, 0x58, len] ++ bytes :=
  ⟨_, lengthByte_toNat h, wrap_framed bytes⟩

/-- Both wrappings end as the payload does. -/
theorem wrap_getLast? (p : Profile) {bytes : List Byte} (h : bytes ≠ []) :
    (wrap p bytes).getLast? = bytes.getLast? := by
  cases p with
  | legacy => rfl
  | framed => rw [wrap_framed, List.getLast?_append_of_ne_nil _ h]

end Sys2Proof.Machine
end

section
/-! SUPPORT. The statements of 41_frame_wrapping.md. -/

namespace Sys2Proof.Machine

/-- Settles O15: by the two rows of the wrapping. -/
theorem wrappingOfAPayload : Obligations.WrappingOfAPayload :=
  fun bytes => ⟨wrap_legacy bytes, wrap_framed_exact⟩

/-- Settles O16: the length check decides at 255, and only the two rows with data can reach it. -/
theorem framedLengthLimitIsExact : Obligations.FramedLengthLimitIsExact := by
  intro P d bytes hbytes
  have hprofile := not_animate_legacy_of_framed d
  refine ⟨fun hlong => ⟨?_, encodeFrame_of_tooLong hprofile hbytes hlong⟩, fun hshort => ?_⟩
  · by_contra hop
    obtain ⟨htext, hrow⟩ := not_or.1 hop
    have := payload_length_le_six hbytes htext hrow
    omega
  · obtain ⟨len, hlen, hwrap⟩ := wrap_framed_exact hshort
    have hframe := encodeFrame_of_not_tooLong hprofile hbytes (Nat.not_lt.2 hshort)
    have hpos : 1 ≤ bytes.length := (payload_ok hbytes).1
    have hsize := wrap_framed_length bytes
    exact ⟨_, len, hframe, hlen, by omega, hwrap, hsize, by omega⟩

/-- Settles O17: the two sides of the Legacy limit. -/
theorem legacyLengthLimit : Obligations.LegacyLengthLimit := by
  intro P d bytes hop hbytes
  have hprofile : ¬ (d.op = 5 ∧ Profile.legacy = .legacy) := fun h => hop h.1
  refine ⟨encodeFrame_of_tooLong hprofile hbytes, fun hlimit => ?_⟩
  apply encodeFrame_of_not_tooLong hprofile hbytes
  rintro ⟨m, hm, hlong⟩
  exact Nat.not_lt.2 (hlimit m hm) hlong

/-- Settles O18: what Framed can send is short, so Legacy, whose limit is no lower, can send it too. -/
theorem profileLaw : Obligations.ProfileLaw := by
  intro P d frame hP h
  obtain ⟨bytes, hbytes, hshort, rfl⟩ := encodeFrame_framed_eq_ok h
  obtain ⟨len, hlen, hwrap⟩ := wrap_framed_exact hshort
  have hlegacy : ¬ PayloadTooLong P .legacy bytes.length :=
    (fits_iff_not_tooLong P .legacy _).1 (fits_of_short hP .legacy hshort)
  exact ⟨bytes, len, hbytes, hlen, hwrap, fun hop => encodeFrame_of_not_tooLong (fun h => hop h.1) hbytes hlegacy⟩

/-- Settles O55: a name's code is one of the three that SetFont sends, and it is the payload's last byte. -/
theorem fontNameReachesTheLine : Obligations.FontNameReachesTheLine := by
  intro F s col name hP hs
  have hcode := fontCode_le F name
  obtain ⟨hqueued, _, _⟩ := setFontQueuesItsFrameOrIsBadOperand s col (fontCode F name) hP hs
  exact ⟨_, hqueued hcode, wrap_getLast? s.profile (by simp), hcode⟩

end Sys2Proof.Machine
end

section
/-! SUPPORT. What an idle and open block does with the request it grants, what becomes of the requests that are not
taken, and the runs in which none is. -/

namespace Sys2Proof.Machine

/-! ### A command on a busy or closed block -/

theorem exec_of_not_idle {s : State} (h : ¬ IdleOpen s) (i : Instr) : exec i s = .next s := by
  rw [exec_eq_presentPayload, presentPayload_of_not_idle h]

theorem presentCommand_of_not_idle {s : State} (h : ¬ IdleOpen s) (d : Descriptor) : presentCommand d s = .next s := by
  rw [presentCommand_eq_descriptorPayload, presentPayload_of_not_idle h]

theorem not_idleOpen_of_busy {s : State} (hb : s.busy = true) : ¬ IdleOpen s := fun h => by simp [h.1] at hb

theorem not_idleOpen_of_closed {s : State} (hc : s.closed = true) : ¬ IdleOpen s := fun h => by simp [h.2] at hc

/-- Under R34 a busy block is open. -/
theorem Inv.open_of_busy {s : State} (h : Inv s) (hb : s.busy = true) : s.closed = false := by
  by_contra hc
  simp [h.closed_idle (by simpa using hc)] at hb

/-! ### The request that is taken (R170) -/

theorem writes_of_write {i : Inputs} {addr data : Byte} (h : i.reg = some (.write addr data)) : i.writes = true := by
  simp [Inputs.writes, h]

theorem grant_regWrite {s : State} {addr data : Byte} (h : IdleOpen s) (hcmd : s.presented.cmd = none)
    (hreg : s.presented.reg = some (.write addr data)) : s.grant = .regWrite addr data := by
  simp [grant_of_idle h, hcmd, hreg]

/-- With neither a command nor a register write presented, the close request alone decides. -/
theorem grant_of_no_command_no_write {s : State} (h : IdleOpen s) (hcmd : s.presented.cmd = none)
    (hreg : s.presented.writes = false) : s.grant = if s.presented.close then .close else .nothing := by
  rw [grant_of_idle h, hcmd]
  cases hr : s.presented.reg with
  | none => cases s.presented.close <;> rfl
  | some r =>
    cases r with
    | read addr => cases s.presented.close <;> rfl
    | write addr data => simp [writes_of_write hr] at hreg

theorem grant_close {s : State} (h : IdleOpen s) (hcmd : s.presented.cmd = none)
    (hreg : s.presented.writes = false) (hclose : s.presented.close = true) : s.grant = .close := by
  rw [grant_of_no_command_no_write h hcmd hreg, hclose]
  rfl

theorem grant_of_quiet {s : State} (hcmd : s.presented.cmd = none) (hreg : s.presented.reg = none)
    (hclose : s.presented.close = false) : s.grant = .nothing := by
  by_cases h : IdleOpen s
  · rw [grant_of_no_command_no_write h hcmd (by simp [Inputs.writes, hreg]), hclose]
    rfl
  · exact grant_of_not_idle h

/-- A register read has no part in the arbitration. -/
theorem grant_without_read {s s' : State} {addr : Byte} (hbusy : s'.busy = s.busy) (hclosed : s'.closed = s.closed)
    (hread : s.presented.reg = some (.read addr)) (hpresented : s'.presented = { s.presented with reg := none }) :
    s'.grant = s.grant := by
  by_cases h : IdleOpen s
  · have h' : IdleOpen s' := ⟨hbusy.trans h.1, hclosed.trans h.2⟩
    rw [grant_of_idle h, grant_of_idle h', hpresented, hread]
    cases s.presented.cmd <;> cases s.presented.close <;> rfl
  · have h' : ¬ IdleOpen s' := fun hi => h ⟨hbusy.symm.trans hi.1, hclosed.symm.trans hi.2⟩
    rw [grant_of_not_idle h, grant_of_not_idle h']

/-! ### The record of each request (R12) -/

theorem turnedAway_of_open {s : State} (h : s.closed = false) : s.turnedAway = .held := by simp [State.turnedAway, h]

theorem turnedAway_of_closed {s : State} (h : s.closed = true) : s.turnedAway = .refused := by
  simp [State.turnedAway, h]

theorem report_cmd_taken {s : State} {d : Descriptor} (hcmd : s.presented.cmd = some d) (hg : s.grant = .command d) :
    s.reportOf.cmd = .taken := by simp [State.reportOf, mark, hcmd, hg]

theorem report_write_taken {s : State} {addr data : Byte} (hw : s.presented.writes = true)
    (hg : s.grant = .regWrite addr data) : s.reportOf.write = .taken := by simp [State.reportOf, mark, hw, hg]

theorem report_close_taken {s : State} (hclose : s.presented.close = true) (hg : s.grant = .close) :
    s.reportOf.close = .taken := by simp [State.reportOf, mark, hclose, hg]

theorem report_read_taken {s : State} {addr : Byte} (hread : s.presented.reg = some (.read addr)) :
    s.reportOf.read = .taken := by simp [State.reportOf, mark, Inputs.readAddr, hread]

theorem report_cmd_turnedAway {s : State} (hcmd : s.presented.cmd.isSome = true) (hg : ∀ d, s.grant ≠ .command d) :
    s.reportOf.cmd = s.turnedAway := by
  simp only [State.reportOf, mark, if_pos hcmd]

theorem report_write_turnedAway {s : State} (hw : s.presented.writes = true)
    (hg : ∀ addr data, s.grant ≠ .regWrite addr data) : s.reportOf.write = s.turnedAway := by
  simp only [State.reportOf, mark, if_pos hw]

theorem report_close_turnedAway {s : State} (hclose : s.presented.close = true) (hg : s.grant ≠ .close) :
    s.reportOf.close = s.turnedAway := by
  simp only [State.reportOf, mark, if_pos hclose]

/-- Every request presented on the command, write and close channels has the outcome `h`. -/
structure Answers (i : Inputs) (r : Report) (h : Handshake) : Prop where
  cmd   : i.cmd.isSome = true → r.cmd = h
  write : i.writes = true → r.write = h
  close : i.close = true → r.close = h

theorem answers_of_grant_nothing {s : State} (hg : s.grant = .nothing) :
    Answers s.presented s.reportOf s.turnedAway where
  cmd hcmd := report_cmd_turnedAway hcmd (by simp [hg])
  write hw := report_write_turnedAway hw (by simp [hg])
  close hclose := report_close_turnedAway hclose (by simp [hg])

/-- A busy and open block holds every request. -/
theorem answers_of_busy {s : State} (hb : s.busy = true) (hc : s.closed = false) :
    Answers s.presented s.reportOf .held :=
  turnedAway_of_open hc ▸ answers_of_grant_nothing (grant_of_not_idle (not_idleOpen_of_busy hb))

/-- A closed block refuses every request. -/
theorem answers_of_closed {s : State} (hc : s.closed = true) : Answers s.presented s.reportOf .refused :=
  turnedAway_of_closed hc ▸ answers_of_grant_nothing (grant_of_not_idle (not_idleOpen_of_closed hc))

/-! ### One step -/

theorem step_of_command {s : State} {d : Descriptor} (hr : s.presented.rst = false) (hi : IdleOpen s)
    (hcmd : s.presented.cmd = some d) : step s = presentCommand d s.beginStep := by
  rw [step_of_not_busy hr hi.1, grant_command hi hcmd]
  rfl

theorem step_of_write {s : State} {addr data : Byte} (hr : s.presented.rst = false) (hi : IdleOpen s)
    (hcmd : s.presented.cmd = none) (hreg : s.presented.reg = some (.write addr data)) :
    step s = .next (s.beginStep.regWrite addr data) := by
  rw [step_of_not_busy hr hi.1, grant_regWrite hi hcmd hreg]
  rfl

theorem step_of_close {s : State} (hr : s.presented.rst = false) (hi : IdleOpen s) (hcmd : s.presented.cmd = none)
    (hreg : s.presented.writes = false) (hclose : s.presented.close = true) : step s = .next s.beginStep.takeClose := by
  rw [step_of_not_busy hr hi.1, grant_close hi hcmd hreg hclose]
  rfl

/-- R172: a step that takes no request and sends no byte. -/
theorem step_of_stay {s : State} (hr : s.presented.rst = false) (hg : s.grant = .nothing)
    (hn : ¬ (s.busy = true ∧ s.presented.outReady = true)) : step s = .next s.beginStep := by
  cases hb : s.busy with
  | false =>
    rw [step_of_not_busy hr hb, hg]
    rfl
  | true =>
    have ho : s.presented.outReady = false := by simpa [hb] using hn
    rw [step_of_busy hr hb, ho]
    rfl

/-- R164: a step in which a byte leaves. -/
theorem step_of_emit {s : State} {b : OutTransfer} (hr : s.presented.rst = false) (hb : s.busy = true)
    (ho : s.presented.outReady = true) (hf : s.frontByte = some b) : step s = .next (s.beginStep.emitByte b) := by
  rw [step_of_busy hr hb, ho]
  exact emit_of_byte (s := s.beginStep) hf

/-- Each kind of step is the step of a state that meets its guard: the converse of `stepEffect_of_step`. -/
theorem step_of_stepEffect {s t : State} (h : StepEffect s t) : step s = .next t := by
  cases h with
  | reset hr => exact step_of_reset hr
  | emit hr _ hb ho hf => exact step_of_emit hr hb ho hf
  | accept hr hg hi he | reject hr hg hi he =>
    rw [step_of_not_busy hr hi.1, hg, serve, presentCommand_of_idle ((idleOpen_beginStep s).2 hi),
      beginStep_params, beginStep_profile, he]
    rfl
  | write hr hg hi | close hr hg hi =>
    rw [step_of_not_busy hr hi.1, hg]
    rfl
  | stay hr hg hn => exact step_of_stay hr hg hn

/-- A step of a busy block takes no request: the block begins its step and at most sends a byte. -/
theorem step_busy_cases {s t : State} (hr : s.presented.rst = false) (hb : s.busy = true) (h : step s = .next t) :
    t = s.beginStep ∨ ∃ b, t = s.beginStep.emitByte b := by
  cases stepEffect_of_step h with
  | reset hr' => simp [hr] at hr'
  | accept _ _ hi | reject _ _ hi | write _ _ hi | close _ _ hi => exact absurd hi (not_idleOpen_of_busy hb)
  | emit => exact .inr ⟨_, rfl⟩
  | stay => exact .inl rfl

/-- A busy block that is not reset keeps its profile and stays open or closed as it was. -/
theorem step_busy_keeps {s t : State} (hr : s.presented.rst = false) (hb : s.busy = true) (h : step s = .next t) :
    t.profile = s.profile ∧ t.closed = s.closed := by
  obtain rfl | ⟨b, rfl⟩ := step_busy_cases hr hb h <;> exact ⟨rfl, rfl⟩

/-- A closed and idle block does nothing but record its requests (R171). -/
theorem step_of_closed {s : State} (hr : s.presented.rst = false) (hb : s.busy = false) (hc : s.closed = true) :
    step s = .next s.beginStep :=
  step_of_stay hr (grant_of_not_idle (not_idleOpen_of_closed hc)) (by simp [hb])

/-- A block that meets R34 is idle and open once the last byte of its frame has left (R164). -/
theorem idleOpen_after_last_byte {s t : State} (hs : Inv s) (hb : s.busy = true) (hlast : s.idx + 1 = s.flen)
    (hr : s.presented.rst = false) (ho : s.presented.outReady = true) (h : step s = .next t) : IdleOpen t := by
  obtain ⟨b, _, hbyte⟩ := hs.frontByte hb
  rw [step_of_emit hr hb ho hbyte] at h
  cases h
  exact ⟨by simp [hlast], hs.open_of_busy hb⟩

/-! ### The register channel -/

theorem regWrite_zero (s : State) (data : Byte) :
    s.regWrite 0 data = { s with profile := if data.getLsbD 0 then .framed else .legacy } := rfl

theorem regWrite_of_ne_zero (s : State) {addr : Byte} (h : addr ≠ 0) (data : Byte) : s.regWrite addr data = s :=
  if_neg h

/-- R169: the three cases of a register read. -/
theorem regRead_eq (s : State) (addr : Byte) :
    s.regRead addr = if addr = 0 then s.cfgByte else if addr = 1 then s.statusByte else 0 := by
  have hzero : addr.toNat = 0 ↔ addr = 0 := toNat_eq_iff (by decide)
  have hone : addr.toNat = 1 ↔ addr = 1 := toNat_eq_iff (by decide)
  unfold State.regRead
  split
  · next h => rw [if_pos (hzero.1 h)]
  · next h => rw [if_neg (fun h0 => by simp [hzero.2 h0] at h), if_pos (hone.1 h)]
  · next h0 h1 => rw [if_neg (fun h => h0 (hzero.2 h)), if_neg (fun h => h1 (hone.2 h))]

theorem readLog_of_read {s : State} {addr : Byte} (h : s.presented.reg = some (.read addr)) :
    s.readLog = [{ addr := addr, rdata := s.regRead addr }] := by simp [State.readLog, Inputs.readAddr, h]

theorem readLog_of_none {s : State} (h : s.presented.reg = none) : s.readLog = [] := by
  simp [State.readLog, Inputs.readAddr, h]

/-- A step that is no reset records its requests and its read as `beginStep` does. -/
theorem record_of_step {s t : State} (hr : s.presented.rst = false) (h : step s = .next t) :
    t.report = s.reportOf ∧ t.reads = s.reads ++ s.readLog := by
  cases stepEffect_of_step h with
  | reset hr' => simp [hr] at hr'
  | write => simp
  | emit | accept | reject | close | stay => exact ⟨rfl, rfl⟩

/-! ### Steps with one effect -/

theorem frontByte_of_sameBlock {s t : State} (h : SameBlock s t) : t.frontByte = s.frontByte := by
  rw [State.frontByte, State.frontByte, h.fb, h.flen, h.idx]

theorem outPort_of_sameBlock {s t : State} (h : SameBlock s t) : t.outPort = s.outPort := by
  rw [State.outPort, State.outPort, State.outValid, State.outValid, h.busy, frontByte_of_sameBlock h]

theorem idleOpen_of_sameBlock {s t : State} (h : SameBlock s t) : IdleOpen t ↔ IdleOpen s := by
  rw [IdleOpen, IdleOpen, h.busy, h.closed]

theorem sameBlock_symm {s t : State} (h : SameBlock s t) : SameBlock t s :=
  ⟨h.profile.symm, h.busy.symm, h.closed.symm, h.err.symm, h.fb.symm, h.flen.symm, h.idx.symm⟩

/-! What an update writes depends on the block alone: two states with one block have one block after it. -/

theorem sameBlock_loadFrame {s t : State} (h : SameBlock s t) (frame : List Byte) :
    SameBlock (s.loadFrame frame) (t.loadFrame frame) := ⟨h.profile, rfl, h.closed, rfl, rfl, rfl, rfl⟩

theorem sameBlock_takeError {s t : State} (h : SameBlock s t) (e : ErrCode) :
    SameBlock (s.takeError e) (t.takeError e) := ⟨h.profile, h.busy, h.closed, rfl, h.fb, h.flen, h.idx⟩

theorem sameBlock_takeClose {s t : State} (h : SameBlock s t) : SameBlock s.takeClose t.takeClose :=
  ⟨h.profile, h.busy, rfl, h.err, h.fb, h.flen, h.idx⟩

theorem sameBlock_emitByte {s t : State} (h : SameBlock s t) (b : OutTransfer) :
    SameBlock (s.emitByte b) (t.emitByte b) :=
  ⟨h.profile, by simp [h.busy, h.flen, h.idx], h.closed, h.err, h.fb, h.flen, by simp [h.idx]⟩

theorem sameBlock_regWrite {s t : State} (h : SameBlock s t) (addr data : Byte) :
    SameBlock (s.regWrite addr data) (t.regWrite addr data) :=
  ⟨by simp [h.profile], by simp [h.busy], by simp [h.closed], by simp [h.err], by simp [h.fb], by simp [h.flen],
   by simp [h.idx]⟩

/-- Of two states with one block, parameters and trace that grant the same request under the same `out_ready`, the
steps without reset have one effect on the block and the trace. -/
theorem step_of_same_grant {s s' t : State} (h : step s = .next t) (hr : s.presented.rst = false)
    (hr' : s'.presented.rst = false) (hblock : SameBlock s s') (hparams : s'.params = s.params)
    (htrace : s'.trace = s.trace) (hgrant : s'.grant = s.grant)
    (hready : s'.presented.outReady = s.presented.outReady) :
    ∃ t', step s' = .next t' ∧ SameBlock t' t ∧ t'.trace = t.trace := by
  have hbegin : SameBlock s'.beginStep s.beginStep := sameBlock_symm ⟨hblock.profile, hblock.busy, hblock.closed,
    hblock.err, hblock.fb, hblock.flen, hblock.idx⟩
  have hidle := idleOpen_of_sameBlock hblock
  cases stepEffect_of_step h with
  | reset hrst => simp [hr] at hrst
  | @emit b _ hg hb ho hf =>
    exact ⟨_, step_of_emit hr' (hblock.busy.trans hb) (hready.trans ho) ((frontByte_of_sameBlock hblock).trans hf),
      sameBlock_emitByte hbegin b, by simp [htrace]⟩
  | @accept d frame _ hg hi he =>
    rw [← hparams, ← hblock.profile] at he
    exact ⟨_, step_of_stepEffect (.accept hr' (hgrant.trans hg) (hidle.2 hi) he),
      sameBlock_loadFrame hbegin frame, htrace⟩
  | @reject d e _ hg hi he =>
    rw [← hparams, ← hblock.profile] at he
    exact ⟨_, step_of_stepEffect (.reject hr' (hgrant.trans hg) (hidle.2 hi) he),
      sameBlock_takeError hbegin e, htrace⟩
  | @write addr data _ hg hi =>
    exact ⟨_, step_of_stepEffect (.write hr' (hgrant.trans hg) (hidle.2 hi)), sameBlock_regWrite hbegin addr data,
      by simp [htrace]⟩
  | close _ hg hi =>
    exact ⟨_, step_of_stepEffect (.close hr' (hgrant.trans hg) (hidle.2 hi)), sameBlock_takeClose hbegin, htrace⟩
  | stay _ hg hn =>
    exact ⟨_, step_of_stay hr' (hgrant.trans hg) (by rwa [hblock.busy, hready]), hbegin, htrace⟩

/-! ### The end marker -/

/-- The bytes of a frame's transfers are the frame's (R165). -/
theorem marked_map_byte (frame : List Byte) : (marked frame).map OutTransfer.byte = frame := by
  apply List.ext_getElem?
  intro k
  rw [List.getElem?_map, marked_getElem?]
  cases frame[k]? <;> rfl

/-- `out_last` stands on the last transfer and on no other (R165). -/
theorem marked_last_iff (frame : List Byte) (k : Nat) (h : k < (marked frame).length) :
    (marked frame)[k].last = true ↔ k + 1 = frame.length := by
  have hk : k < frame.length := marked_length frame ▸ h
  have hentry := marked_getElem? frame k
  rw [List.getElem?_eq_getElem h, List.getElem?_eq_getElem hk, Option.map_some, Option.some.injEq] at hentry
  rw [hentry, decide_eq_true_iff]

/-! ### Runs in which nothing is taken and nothing leaves -/

/-- R164, R171, R172: a block that is busy or closed and sends no byte stays as it is. The last step's record is that
of a state `u` with the same block. -/
theorem run_of_stay {ins rest : List Inputs} {s : State} (hi : ¬ IdleOpen s) (hins : s.inputs = ins ++ rest)
    (hr : NoReset ins) (hn : s.busy = true → readyCount ins = 0) :
    ∃ t, run ins.length s = .next t ∧ SameBlock s t ∧ t.trace = s.trace ∧ t.inputs = rest ∧
      ∀ i, ins.getLast? = some i → ∃ u, SameBlock s u ∧ u.presented = i ∧ t.report = u.reportOf := by
  induction ins using List.reverseRecOn generalizing rest with
  | nil => exact ⟨s, rfl, ⟨rfl, rfl, rfl, rfl, rfl, rfl, rfl⟩, rfl, hins, by simp⟩
  | append_singleton ins last ih =>
    obtain ⟨hrins, hrlast⟩ := List.forall_mem_append.1 hr
    have hcount : s.busy = true → readyCount ins = 0 ∧ last.outReady = false := fun hb => by
      simpa [readyCount] using hn hb
    obtain ⟨u, hrun, hblock, htrace, hinputs, _⟩ := ih (rest := last :: rest) (by simpa using hins) hrins
      fun hb => (hcount hb).1
    have hp : u.presented = last := presented_of_inputs hinputs
    have hgrant : u.grant = .nothing := grant_of_not_idle fun h => hi ((idleOpen_of_sameBlock hblock).1 h)
    have hstep : step u = .next u.beginStep := by
      refine step_of_stay (hp ▸ hrlast last (by simp)) hgrant fun ⟨hb, ho⟩ => ?_
      rw [hp, (hcount (hblock.busy.symm.trans hb)).2] at ho
      cases ho
    refine ⟨u.beginStep, ?_, sameBlock_trans hblock (sameBlock_beginStep u), htrace, by simp [hinputs], ?_⟩
    · rw [List.length_append, List.length_singleton, run_add hrun, run_succ hstep, run_zero]
    · intro i hlast
      exact ⟨u, hblock, by simpa [hp] using hlast, rfl⟩

end Sys2Proof.Machine
end

section
/-! SUPPORT. The statements of 42_controller.md. -/

namespace Sys2Proof.Machine

/-- Settles O14: by `presentCommand_of_idle`, for both results of the encode function. -/
theorem acceptFollowsTheEncodeFunction : Obligations.AcceptFollowsTheEncodeFunction := by
  intro s d hs
  rw [presentCommand_of_idle hs]
  cases encodeFrame s.params d s.profile <;> rfl

/-- Settles O32: a busy block takes no request, and with no `out_ready` among the steps it sends no byte. -/
theorem stalledBlockHoldsItsByte : Obligations.StalledBlockHoldsItsByte := by
  intro ins rest s hins hb hr hcount
  obtain ⟨t, hrun, hblock, htrace, hrest, _⟩ := run_of_stay (not_idleOpen_of_busy hb) hins hr fun _ => hcount
  exact ⟨t, hrun, hblock, htrace, hrest, outPort_of_sameBlock hblock⟩

/-- Settles O34: entry by entry, since the entry `k` of `marked` is the byte `k` marked where `k + 1` is the length. -/
theorem endMarkerOnTheLastByteAlone : Obligations.EndMarkerOnTheLastByteAlone := by
  refine ⟨fun frame => ⟨marked_map_byte frame, marked_last_iff frame⟩, fun s hlen => ?_⟩
  have hfront := frontByte_eq_marked_getElem? hlen
  refine ⟨hfront, fun hb => ?_, fun t h => ?_⟩
  · rw [State.outPort, State.outValid, if_pos hb, hfront]
  · obtain ⟨b, hbyte, rfl⟩ := emit_next h
    exact ⟨b, hfront ▸ hbyte, rfl⟩

/-- Settles O35: the last byte leaves, every request is held, and the block is idle and open when the caller presents
them again. -/
theorem heldCommandIsTakenAfterTheFrame : Obligations.HeldCommandIsTakenAfterTheFrame := by
  intro s t hs hb hlast hr ho h hholds hrt
  have hidle : IdleOpen t := idleOpen_after_last_byte hs hb hlast hr ho h
  have hheld : Answers s.presented t.report .held :=
    (record_of_step hr h).1 ▸ answers_of_busy hb (hs.open_of_busy hb)
  obtain ⟨hcmdAgain, hregAgain, hcloseAgain⟩ := hholds
  refine ⟨fun d hcmd => ?_, fun addr data hreg => ?_, fun hclose => ?_⟩
  · have hcmdHeld := hheld.cmd (by simp [hcmd])
    have hcmd' := (hcmdAgain hcmdHeld).trans hcmd
    exact ⟨hcmdHeld, step_of_command hrt hidle hcmd', report_cmd_taken hcmd' (grant_command hidle hcmd')⟩
  · have hregHeld := hheld.write (writes_of_write hreg)
    have hreg' := (hregAgain hregHeld).trans hreg
    exact ⟨hregHeld, fun hno => ⟨step_of_write hrt hidle hno hreg',
      report_write_taken (writes_of_write hreg') (grant_regWrite hidle hno hreg')⟩⟩
  · have hcloseHeld := hheld.close hclose
    have hclose' := (hcloseAgain hcloseHeld).trans hclose
    exact ⟨hcloseHeld, fun hno hnow => ⟨step_of_close hrt hidle hno hnow hclose',
      report_close_taken hclose' (grant_close hidle hno hnow hclose')⟩⟩

/-- Settles O38: the read is recorded by `beginStep`, and without it the same request is granted. -/
theorem registerRead : Obligations.RegisterRead := by
  intro s t addr hr hread h
  obtain ⟨hreport, hreads⟩ := record_of_step hr h
  refine ⟨hreport ▸ report_read_taken hread, ?_, ?_⟩
  · rw [hreads, readLog_of_read hread, regRead_eq]
  · exact step_of_same_grant h hr hr ⟨rfl, rfl, rfl, rfl, rfl, rfl, rfl⟩ rfl rfl
      (grant_without_read rfl rfl hread rfl) rfl

/-- Settles O42: a closed block takes no request and an idle one sends no byte. -/
theorem closedUntilReset : Obligations.ClosedUntilReset := by
  intro ins rest s hins hc hb hr
  obtain ⟨t, hrun, hblock, htrace, hrest, hlast⟩ :=
    run_of_stay (not_idleOpen_of_closed hc) hins hr fun hbusy => by simp [hb] at hbusy
  refine ⟨t, hrun, hblock, htrace, hrest, fun i hi => ?_⟩
  obtain ⟨u, hu, rfl, hreport⟩ := hlast i hi
  have hrefused := answers_of_closed (hu.closed.trans hc)
  rw [hreport]
  exact ⟨hrefused.cmd, hrefused.write, hrefused.close⟩

/-- Settles O11: every command, and every descriptor's error, goes through the one ready signal. -/
theorem commandIsNotTakenWhileBusyOrClosed : Obligations.CommandIsNotTakenWhileBusyOrClosed :=
  fun _ i d h => ⟨exec_of_not_idle h i, presentCommand_of_not_idle h d⟩

/-- Settles O29: the command is granted, and runs as its descriptor decodes. -/
theorem stepRunsTheDecodedCommand : Obligations.StepRunsTheDecodedCommand := by
  intro s d hr hi hcmd
  rw [step_of_command hr hi hcmd]
  exact ⟨fun i hd => presentCommand_of_ok _ hd, fun e hd => presentCommand_of_error _ hd, sameBlock_beginStep s,
    rfl, rfl, rfl, report_cmd_taken hcmd (grant_command hi hcmd)⟩

/-- Settles O31: R34 gives a busy block its byte at `IDX`, which `emitByte` sends or `beginStep` leaves there. -/
theorem emitSendsOneByteOrHoldsIt : Obligations.EmitSendsOneByteOrHoldsIt := by
  intro s hs hr hb
  obtain ⟨b, hbyte, hfront⟩ := hs.frontByte hb
  have hlt : s.idx < s.flen := hs.busy_iff.1 hb
  have hlast : s.idx + 1 = s.flen ↔ s.idx = s.flen - 1 := by omega
  refine ⟨fun ho => ?_, fun ho => ?_⟩
  · refine ⟨b, _, hbyte, step_of_emit hr hb ho hfront, ?_, rfl, ?_, rfl, rfl, rfl, rfl, rfl, rfl⟩
    · simp [hlast]
    · simp [hb]
  · exact ⟨_, step_of_stay hr (grant_of_not_idle (not_idleOpen_of_busy hb)) (by simp [ho]),
      sameBlock_beginStep s, rfl, hb, outPort_of_sameBlock (sameBlock_beginStep s)⟩

/-- Settles O36: the grant decides where the block is idle and open; a busy or closed block takes nothing. -/
theorem closeRequest : Obligations.CloseRequest := by
  intro s hr hclose
  refine ⟨fun hi hcmd hreg => ?_, fun hb hc => ?_, fun hb hc => ?_, sameBlock_beginStep s⟩
  · exact ⟨step_of_close hr hi hcmd hreg hclose, report_close_taken hclose (grant_close hi hcmd hreg hclose)⟩
  · exact ⟨(answers_of_busy hb hc).close hclose, fun t h => (step_busy_keeps hr hb h).2.trans hc⟩
  · exact ⟨(answers_of_closed hc).close hclose, step_of_closed hr hb hc⟩

/-- Settles O37: the write is granted where the block is idle and open; a busy or closed block takes nothing. -/
theorem registerWrite : Obligations.RegisterWrite := by
  intro s addr data hr hreg
  have hwrites := writes_of_write hreg
  refine ⟨fun hi hcmd => ?_, fun hb hc => ?_, fun hb hc => ?_, sameBlock_beginStep s⟩
  · rw [step_of_write hr hi hcmd hreg]
    refine ⟨report_write_taken hwrites (grant_regWrite hi hcmd hreg), ?_, fun haddr => ?_⟩
    · rintro rfl
      rw [regWrite_zero]
    · rw [regWrite_of_ne_zero _ haddr]
  · exact ⟨(answers_of_busy hb hc).write hwrites, fun t h => (step_busy_keeps hr hb h).1⟩
  · exact ⟨(answers_of_closed hc).write hwrites, step_of_closed hr hb hc⟩

/-- Settles O41: the grant is the first of the three requests presented, and an open block holds the others. -/
theorem orderOfSimultaneousRequests : Obligations.OrderOfSimultaneousRequests := by
  intro s hr hi
  have hheld : s.turnedAway = .held := turnedAway_of_open hi.2
  refine ⟨fun d hcmd => ?_, fun addr data hcmd hreg => ?_, fun hcmd hreg hclose => ?_⟩
  · have hg := grant_command hi hcmd
    exact ⟨step_of_command hr hi hcmd, report_cmd_taken hcmd hg,
      fun hw => (report_write_turnedAway hw (by simp [hg])).trans hheld,
      fun hclose => (report_close_turnedAway hclose (by simp [hg])).trans hheld⟩
  · have hg := grant_regWrite hi hcmd hreg
    exact ⟨step_of_write hr hi hcmd hreg, report_write_taken (writes_of_write hreg) hg,
      fun hclose => (report_close_turnedAway hclose (by simp [hg])).trans hheld⟩
  · exact ⟨step_of_close hr hi hcmd hreg hclose, report_close_taken hclose (grant_close hi hcmd hreg hclose)⟩

/-- Settles O43: nothing is granted, and no read is recorded. -/
theorem idleBlockStaysAsItIs : Obligations.IdleBlockStaysAsItIs := by
  intro s hb hcmd hreg hclose hr
  have hstep := step_of_stay hr (grant_of_quiet hcmd hreg hclose) (by simp [hb])
  exact ⟨_, hstep, sameBlock_beginStep s, rfl, by simp [readLog_of_none hreg]⟩

end Sys2Proof.Machine
end

section
/-! SUPPORT. What a line of text comes to (43_front_end.md R190 to R199): numerals, text, names, and the descriptors
that the front end builds, none of which is an error of the payload function. -/

namespace Sys2Proof.Machine

/-! ### Numerals and text -/

theorem numericArg_of_le {word : Text} {n : Nat} (h : decimal word = some n) (hn : n ≤ 255) :
    numericArg word = .ok (BitVec.ofNat 8 n) := by
  simp [numericArg, h, hn]

theorem numericArg_of_gt {word : Text} {n : Nat} (h : decimal word = some n) (hn : 255 < n) :
    numericArg word = .error .outOfRange := by
  simp [numericArg, h, Nat.not_le.2 hn]

/-- R197: a text of ASCII characters is the list of their codes. -/
theorem textBytes_of_ascii {text : Text} (h : ∀ c ∈ text, c.toNat ≤ 127) :
    textBytes text = .ok (text.map fun c => BitVec.ofNat 8 c.toNat) := by
  induction text with
  | nil => rfl
  | cons c rest ih =>
    obtain ⟨hc, hrest⟩ := List.forall_mem_cons.1 h
    rw [textBytes, if_pos hc, ih hrest]
    rfl

/-- R197: the one character outside ASCII is the first or stands in the rest. -/
theorem textBytes_of_not_ascii {text : Text} (h : ∃ c ∈ text, 127 < c.toNat) : textBytes text = .error .nonAscii := by
  induction text with
  | nil => simp at h
  | cons c rest ih =>
    by_cases hc : c.toNat ≤ 127
    · have hrest : ∃ c ∈ rest, 127 < c.toNat := by simpa [Nat.not_lt.2 hc] using h
      rw [textBytes, if_pos hc, ih hrest]
      rfl
    · rw [textBytes, if_neg hc]

/-! ### Names -/

/-- R194: the font code by the name that is compared, lower-cased where `FONT_NAME_CASEFOLD` holds. -/
theorem fontCode_eq (F : FrontEndParams) (name : Text) {n : Text}
    (hn : (if F.fontNameCasefold then name.map Char.toLower else name) = n) :
    fontCode F name = if n = "ibm".toList then 2 else if n = "pro".toList then 1 else 0 := by
  subst hn
  rfl

theorem kindCode_blink (F : FrontEndParams) : kindCode F F.animNameBlink = 1 := if_pos rfl

theorem kindCode_slide {F : FrontEndParams} (h : F.animNameBlink ≠ F.animNameSlide) :
    kindCode F F.animNameSlide = 2 := by
  rw [kindCode, if_neg h.symm, if_pos rfl]

theorem kindCode_other {F : FrontEndParams} {name : Text} (hblink : name ≠ F.animNameBlink)
    (hslide : name ≠ F.animNameSlide) : kindCode F name = 0 := by
  rw [kindCode, if_neg hblink, if_neg hslide]

/-! ### The descriptors that are built -/

/-- A defined opcode, and with SetFont and Animate a code of 0, 1 or 2: all that the payload function asks. -/
structure HasPayload (d : Descriptor) : Prop where
  defined : ¬ (d.op = 0 ∨ 10 < d.op.toNat)
  code_le : d.op = 3 ∨ d.op = 5 → d.a1.toNat ≤ 2

theorem payload_of_hasPayload (P : Params) {d : Descriptor} (h : HasPayload d) : ∃ bytes, payload P d = .ok bytes := by
  rcases opcode_cases d.op with hop | hop | hop | hop | hop | hop | hop | hop | hop | hop | hop
  case inr.inr.inl =>
    have hfont : ¬ 2 < d.a1.toNat := Nat.not_lt.2 (h.code_le (.inl hop))
    simp [payload, hop, hfont]
  case inr.inr.inr.inl => cases hc : P.colorArgc <;> simp [payload, hop, hc]
  case inr.inr.inr.inr.inl =>
    have hkind := h.code_le (.inr hop)
    rcases kind_cases d.a1 with hk | hk | hk | hk
    case inr.inr.inr => omega
    all_goals simp [payload, hop, hk]
  case inr.inr.inr.inr.inr.inr.inr.inr.inr.inr => exact absurd hop h.defined
  all_goals simp [payload, hop]

/-- The commands whose arguments are numbers alone are neither SetFont nor Animate. -/
theorem fixedCommand_hasPayload {op : Byte} {n : Nat} {ws rest : List Text} {d : Descriptor}
    (hop : ¬ (op = 0 ∨ 10 < op.toNat) ∧ ¬ (op = 3 ∨ op = 5)) (h : fixedCommand op n ws = .ok (d, rest)) :
    HasPayload d := by
  obtain ⟨⟨args, more⟩, _, hd⟩ := except_bind_ok h
  cases hd
  exact ⟨hop.1, fun hcode => absurd hcode hop.2⟩

theorem textCommand_hasPayload {F : FrontEndParams} {ws rest : List Text} {d : Descriptor}
    (h : textCommand F ws = .ok (d, rest)) : HasPayload d := by
  obtain ⟨⟨args, more⟩, _, hd⟩ := except_bind_ok h
  dsimp only at hd
  split at hd
  · cases hd
  · obtain ⟨bytes, _, hd⟩ := except_bind_ok hd
    cases hd
    exact ⟨by simp, by simp⟩

/-- R194: a font name gives a legal code. -/
theorem fontCommand_hasPayload {F : FrontEndParams} {ws rest : List Text} {d : Descriptor}
    (h : fontCommand F ws = .ok (d, rest)) : HasPayload d := by
  obtain ⟨⟨args, more⟩, _, hd⟩ := except_bind_ok h
  cases more with
  | nil => cases hd
  | cons name more =>
    cases hd
    exact ⟨by simp, fun _ => fontCode_le F name⟩

/-- R195: a kind name gives a legal code. -/
theorem animateCommand_hasPayload {F : FrontEndParams} {ws rest : List Text} {d : Descriptor}
    (h : animateCommand F ws = .ok (d, rest)) : HasPayload d := by
  obtain ⟨⟨args, more⟩, _, hd⟩ := except_bind_ok h
  cases more with
  | nil => cases hd
  | cons name more =>
    obtain ⟨⟨operands, left⟩, _, hd⟩ := except_bind_ok hd
    cases hd
    exact ⟨by simp, fun _ => kindCode_le F name⟩

theorem rowCommand_hasPayload {ws rest : List Text} {d : Descriptor} (h : rowCommand ws = .ok (d, rest)) :
    HasPayload d := by
  obtain ⟨values, _, hd⟩ := except_bind_ok h
  cases hd
  exact ⟨by simp, by simp⟩

theorem commandDescriptor_hasPayload {F : FrontEndParams} {P : Params} {k : CmdKind} {ws rest : List Text}
    {d : Descriptor} (h : commandDescriptor F P k ws = .ok (d, rest)) : HasPayload d := by
  cases k with
  | writeText => exact textCommand_hasPayload h
  | setFont => exact fontCommand_hasPayload h
  | animate => exact animateCommand_hasPayload h
  | setRow => exact rowCommand_hasPayload h
  | setMode | setColor | setPixel | clear | outputEnable | outputDisable =>
    exact fixedCommand_hasPayload (by decide) h

/-! ### The checks of R190 and the line -/

/-- R190: the Framed length check passes a descriptor on unchanged where its payload has at most 255 bytes. -/
theorem checkLength_framed_ok {P : Params} {d d' : Descriptor} (h : checkLength P .framed d = .ok d') :
    d' = d ∧ ∀ bytes, payload P d = .ok bytes → bytes.length ≤ 255 := by
  unfold checkLength at h
  split at h
  · next bytes hbytes =>
    split at h
    · cases h
    · next hlen =>
      cases h
      refine ⟨rfl, fun bytes' hbytes' => ?_⟩
      cases hbytes.symm.trans hbytes'
      exact Nat.not_lt.1 hlen
  · next hno =>
    cases h
    exact ⟨rfl, fun bytes hbytes => (hno bytes rfl hbytes).elim⟩

theorem buildDescriptor_framed_ok {F : FrontEndParams} {P : Params} {k : CmdKind} {ws : List Text} {d : Descriptor}
    (h : buildDescriptor F P .framed k ws = .ok d) :
    HasPayload d ∧ ∀ bytes, payload P d = .ok bytes → bytes.length ≤ 255 := by
  obtain ⟨⟨d₀, rest⟩, hcommand, h⟩ := except_bind_ok h
  obtain ⟨d₁, hextra, hlength⟩ := except_bind_ok h
  obtain rfl := checkExtra_ok hextra
  obtain ⟨rfl, hshort⟩ := checkLength_framed_ok hlength
  exact ⟨commandDescriptor_hasPayload hcommand, hshort⟩

/-- What a line that is presented has gone through. -/
theorem readLine_eq_present {F : FrontEndParams} {P : Params} {p : Profile} {line : Text} {d : Descriptor}
    (h : readLine F P p line = .present d) : ∃ k ws, buildDescriptor F P p k ws = .ok d := by
  unfold readLine at h
  split at h
  · cases h
  · next name ws _ =>
    split at h
    · cases h
    · next k _ =>
      split at h
      · next hbuild =>
        cases h
        exact ⟨k, ws, hbuild⟩
      · cases h

theorem commandNamed_eq_none {F : FrontEndParams} {name : Text} (h : ∀ k, F.cmdName k ≠ name) :
    commandNamed F name = none := by
  simp [commandNamed, h]

/-- R196: a line with no recognized name, or with no word, is the close request. -/
theorem readLine_of_unrecognized {F : FrontEndParams} {line : Text} (P : Params) (p : Profile)
    (h : splitWords line = [] ∨ ∃ name args, splitWords line = name :: args ∧ ∀ k, F.cmdName k ≠ name) :
    readLine F P p line = .closeRequest := by
  obtain hempty | ⟨name, args, hwords, hname⟩ := h
  · simp [readLine, hempty]
  · simp [readLine, hwords, commandNamed_eq_none hname]

end Sys2Proof.Machine
end

section
/-! SUPPORT. The front end's loop (43_front_end.md R199, R200): its step phase by phase, what it reads, and what the
block does in the phases that drive it. -/

namespace Sys2Proof.Machine

/-! ### The loop's step by its phase -/

theorem session_step_of_reading {F : FrontEndParams} {ready : Bool} {w : Session} (h : w.phase = .reading) :
    Session.step F ready w = .next (w.readNext F) := by simp [Session.step, h]

theorem session_step_of_presenting {F : FrontEndParams} {ready : Bool} {w : Session} {d : Descriptor}
    (h : w.phase = .presenting d) :
    Session.step F ready w = w.drive { cmd := some d, outReady := ready } fun t =>
      if t.report.cmd = .taken then .draining else .presenting d := by simp [Session.step, h]

theorem session_step_of_draining {F : FrontEndParams} {ready : Bool} {w : Session} (h : w.phase = .draining) :
    Session.step F ready w = w.drive { outReady := ready } fun t => if t.busy then .draining else .reading := by
  simp [Session.step, h]

theorem session_step_of_closing {F : FrontEndParams} {ready : Bool} {w : Session} (h : w.phase = .closing) :
    Session.step F ready w = w.drive { close := true, outReady := ready } fun t =>
      if t.report.close = .taken then .left else .closing := by simp [Session.step, h]

theorem session_step_of_left {F : FrontEndParams} {ready : Bool} {w : Session} (h : w.phase = .left) :
    Session.step F ready w = .next w := by simp [Session.step, h]

/-! ### Reading a line -/

theorem readNext_of_no_line {F : FrontEndParams} {w : Session} (h : w.lines = []) : w.readNext F = w := by
  simp [Session.readNext, h]

theorem readNext_of_present {F : FrontEndParams} {w : Session} {line : Text} {rest : List Text} {d : Descriptor}
    (hlines : w.lines = line :: rest) (h : readLine F w.block.params w.block.profile line = .present d) :
    w.readNext F = { w with lines := rest, phase := .presenting d } := by
  simp [Session.readNext, hlines, h]

theorem readNext_of_closeRequest {F : FrontEndParams} {w : Session} {line : Text} {rest : List Text}
    (hlines : w.lines = line :: rest) (h : readLine F w.block.params w.block.profile line = .closeRequest) :
    w.readNext F = { w with lines := rest, phase := .closing } := by
  simp [Session.readNext, hlines, h]

theorem readNext_of_rejected {F : FrontEndParams} {w : Session} {line : Text} {rest : List Text} {e : LineError}
    (hlines : w.lines = line :: rest) (h : readLine F w.block.params w.block.profile line = .rejected e) :
    w.readNext F = { w with lines := rest, errors := w.errors ++ [e] } := by
  simp [Session.readNext, hlines, h]

/-! ### No step leads back to the opening (R200) -/

/-- The loop stands where `place` puts it. -/
theorem drive_phase {w v : Session} {i : Inputs} {place : State → Phase} (h : w.drive i place = .next v) :
    ∃ t, v.phase = place t := by
  unfold Session.drive at h
  split at h
  · cases h
    exact ⟨_, rfl⟩
  · cases h
  · cases h

theorem readNext_phase_ne_opening (F : FrontEndParams) {w : Session} (h : w.phase = .reading) :
    (w.readNext F).phase ≠ .opening := by
  cases hlines : w.lines with
  | nil => simp [readNext_of_no_line hlines, h]
  | cons line rest =>
    cases hline : readLine F w.block.params w.block.profile line with
    | present d => simp [readNext_of_present hlines hline]
    | closeRequest => simp [readNext_of_closeRequest hlines hline]
    | rejected e => simp [readNext_of_rejected hlines hline, h]

theorem session_step_phase_ne_opening {F : FrontEndParams} {ready : Bool} {w v : Session}
    (h : Session.step F ready w = .next v) : v.phase ≠ .opening := by
  cases hp : w.phase with
  | opening =>
    simp only [Session.step, hp] at h
    obtain ⟨t, ht⟩ := drive_phase h
    simp [ht]
  | reading =>
    rw [session_step_of_reading hp] at h
    cases h
    exact readNext_phase_ne_opening F hp
  | presenting d =>
    rw [session_step_of_presenting hp] at h
    obtain ⟨t, ht⟩ := drive_phase h
    rw [ht]
    split <;> simp
  | draining =>
    rw [session_step_of_draining hp] at h
    obtain ⟨t, ht⟩ := drive_phase h
    rw [ht]
    split <;> simp
  | closing =>
    rw [session_step_of_closing hp] at h
    obtain ⟨t, ht⟩ := drive_phase h
    rw [ht]
    split <;> simp
  | left =>
    rw [session_step_of_left hp] at h
    cases h
    simp [hp]

/-! ### A step of the block that takes no request -/

theorem turnedAway_ne_taken (s : State) : s.turnedAway ≠ .taken := by
  unfold State.turnedAway
  split <;> simp

/-- R161, R164, R172: where no request is granted, a block that meets R34 at most emits. -/
theorem step_onlyEmits {s : State} (h : Inv s) (hr : s.presented.rst = false) (hg : s.grant = .nothing) :
    ∃ t, step s = .next t ∧ t.report = s.reportOf ∧ OnlyEmits s.presented.outReady s t := by
  obtain ⟨hb, ho, b, hf, hstep⟩ | ⟨hn, hstep⟩ := step_of_grant_nothing h hr hg
  · have hbegin := inv_beginStep h
    refine ⟨_, hstep, rfl, line_emitByte hbegin hb hf, ?_, (inv_emitByte hbegin hb b).busy_iff, rfl, rfl, rfl, rfl⟩
    rw [if_pos ⟨hb, ho⟩]
    rfl
  · refine ⟨_, hstep, rfl, line_beginStep s, ?_, h.busy_iff, rfl, rfl, rfl, rfl⟩
    rw [if_neg hn]
    rfl

/-! ### The block as the loop drives it -/

/-- The block of a loop step, with the one step's inputs that the loop presents to it. -/
def Session.driven (w : Session) (i : Inputs) : State := { w.block with inputs := [i] }

theorem driven_sameBlock (w : Session) (i : Inputs) : SameBlock w.block (w.driven i) :=
  ⟨rfl, rfl, rfl, rfl, rfl, rfl, rfl⟩

theorem driven_idleOpen (w : Session) (i : Inputs) : IdleOpen (w.driven i) ↔ IdleOpen w.block := Iff.rfl

theorem driven_inv {w : Session} (h : Inv w.block) (i : Inputs) : Inv (w.driven i) :=
  ⟨h.busy_iff, h.idx_le, h.flen_eq, h.closed_idle, h.err_le⟩

/-- The loop's place after a step of its block. -/
theorem drive_place {w : Session} {i : Inputs} {place : State → Phase} {t : State} {after : Phase}
    (h : step (w.driven i) = .next t) (hplace : place t = after) :
    w.drive i place = .next { w with block := t, phase := after } := hplace ▸ drive_of_step h

/-- A loop step whose inputs the block grants nothing: the block at most emits, and each request is turned away. -/
theorem drive_onlyEmits {w : Session} {i : Inputs} (place : State → Phase) (h : Inv w.block) (hr : i.rst = false)
    (hg : (w.driven i).grant = .nothing) :
    ∃ t, w.drive i place = .next { w with block := t, phase := place t } ∧
      Answers i t.report (w.driven i).turnedAway ∧ OnlyEmits i.outReady w.block t := by
  obtain ⟨t, hstep, hreport, hemits⟩ := step_onlyEmits (driven_inv h i) hr hg
  exact ⟨t, drive_of_step hstep, hreport ▸ answers_of_grant_nothing hg,
    ⟨hemits.line, hemits.idx, hemits.busy, hemits.flen, hemits.profile, hemits.closed, hemits.err⟩⟩

/-- R161: a descriptor presented to a busy or closed block stays presented. -/
theorem session_presenting_waits (F : FrontEndParams) (ready : Bool) {w : Session} {d : Descriptor}
    (hp : w.phase = .presenting d) (h : Inv w.block) (hi : ¬ IdleOpen w.block) :
    ∃ t, Session.step F ready w = .next { w with block := t, phase := .presenting d } ∧
      OnlyEmits ready w.block t := by
  rw [session_step_of_presenting hp]
  obtain ⟨t, hdrive, hanswers, hemits⟩ :=
    drive_onlyEmits (i := { cmd := some d, outReady := ready }) _ h rfl (grant_of_not_idle hi)
  have hnot : t.report.cmd ≠ .taken := hanswers.cmd rfl ▸ turnedAway_ne_taken _
  exact ⟨t, by rw [hdrive, if_neg hnot], hemits⟩

/-- R167: a close request presented to a busy or closed block stays presented. -/
theorem session_closing_waits (F : FrontEndParams) (ready : Bool) {w : Session} (hp : w.phase = .closing)
    (h : Inv w.block) (hi : ¬ IdleOpen w.block) :
    ∃ t, Session.step F ready w = .next { w with block := t, phase := .closing } ∧ OnlyEmits ready w.block t := by
  rw [session_step_of_closing hp]
  obtain ⟨t, hdrive, hanswers, hemits⟩ :=
    drive_onlyEmits (i := { close := true, outReady := ready }) _ h rfl (grant_of_not_idle hi)
  have hnot : t.report.close ≠ .taken := hanswers.close rfl ▸ turnedAway_ne_taken _
  exact ⟨t, by rw [hdrive, if_neg hnot], hemits⟩

/-- R199: nothing is presented while the frame is in flight. -/
theorem session_draining (F : FrontEndParams) (ready : Bool) {w : Session} (hp : w.phase = .draining)
    (h : Inv w.block) :
    ∃ t, Session.step F ready w = .next { w with block := t, phase := if t.busy then .draining else .reading } ∧
      OnlyEmits ready w.block t := by
  rw [session_step_of_draining hp]
  obtain ⟨t, hdrive, _, hemits⟩ := drive_onlyEmits (i := { outReady := ready }) _ h rfl (grant_of_quiet rfl rfl rfl)
  exact ⟨t, hdrive, hemits⟩

/-! ### A request that the block takes -/

@[simp] theorem takeResult_trace (s : State) (r : Except ErrCode (List Byte)) : (s.takeResult r).trace = s.trace := by
  cases r <;> rfl

theorem sameBlock_takeResult {s t : State} (h : SameBlock s t) (r : Except ErrCode (List Byte)) :
    SameBlock (s.takeResult r) (t.takeResult r) := by
  cases r with
  | ok frame => exact sameBlock_loadFrame h frame
  | error e => exact sameBlock_takeError h e

/-- R162: a descriptor presented to an idle and open block is taken, with the effect of its ACCEPT. -/
theorem session_presenting_taken (F : FrontEndParams) (ready : Bool) {w : Session} {d : Descriptor}
    (hp : w.phase = .presenting d) (hi : IdleOpen w.block) :
    ∃ t u, Session.step F ready w = .next { w with block := u, phase := .draining } ∧
      presentCommand d w.block = .next t ∧ SameBlock t u ∧ u.trace = w.block.trace := by
  rw [session_step_of_presenting hp]
  have hi' := (driven_idleOpen w { cmd := some d, outReady := ready }).2 hi
  have hstep := step_of_command (d := d) rfl hi' rfl
  rw [presentCommand_of_idle ((idleOpen_beginStep _).2 hi')] at hstep
  have htaken := (record_of_step rfl hstep).1 ▸ report_cmd_taken rfl (grant_command hi' rfl)
  have hbegin := sameBlock_trans (driven_sameBlock w { cmd := some d, outReady := ready }) (sameBlock_beginStep _)
  exact ⟨_, _, drive_place hstep (if_pos htaken), presentCommand_of_idle hi d, sameBlock_takeResult hbegin _,
    takeResult_trace _ _⟩

/-- R167: a close request presented to an idle and open block is taken, and the loop is left. -/
theorem session_closing_taken (F : FrontEndParams) (ready : Bool) {w : Session} (hp : w.phase = .closing)
    (hi : IdleOpen w.block) :
    ∃ t, Session.step F ready w = .next { w with block := t, phase := .left } ∧ t.closed = true ∧
      t.trace = w.block.trace := by
  rw [session_step_of_closing hp]
  have hi' := (driven_idleOpen w { close := true, outReady := ready }).2 hi
  have hstep := step_of_close rfl hi' rfl rfl rfl
  have htaken := (record_of_step rfl hstep).1 ▸ report_close_taken rfl (grant_close hi' rfl rfl rfl)
  exact ⟨_, drive_place hstep (if_pos htaken), rfl, rfl⟩

end Sys2Proof.Machine
end

section
/-! SUPPORT. The statements of 43_front_end.md. -/

namespace Sys2Proof.Machine

/-- Settles O57: by induction on the text; a code of at most 127 is kept by the byte it becomes. -/
theorem textIsAsciiBytes : Obligations.TextIsAsciiBytes := by
  refine fun text => ⟨fun h => ⟨_, textBytes_of_ascii h, ?_⟩, textBytes_of_not_ascii⟩
  rw [List.map_map]
  exact List.map_congr_left fun c hc => lengthByte_toNat (Nat.le_trans (h c hc) (by decide))

/-- Settles O58: the loop's step phase by phase; the close request is taken by an idle and open block alone. -/
theorem unrecognizedNameCloses : Obligations.UnrecognizedNameCloses := by
  refine fun F ready => ⟨fun lines block => ?_, fun w => ⟨fun v => session_step_phase_ne_opening, ?_, ?_, ?_, ?_⟩⟩
  · exact ⟨_, step_start F ready lines block, rfl, rfl, rfl, rfl, rfl, rfl, rfl, rfl, rfl, rfl, rfl, rfl⟩
  · intro line rest hp hlines hname
    rw [session_step_of_reading hp, readNext_of_closeRequest hlines (readLine_of_unrecognized _ _ hname)]
  · intro hp hinv hb
    obtain ⟨t, hstep, hemits⟩ := session_closing_waits F ready hp hinv (not_idleOpen_of_busy hb)
    exact ⟨_, hstep, rfl, rfl, rfl, hemits⟩
  · intro hp hi
    obtain ⟨t, hstep, hclosed, htrace⟩ := session_closing_taken F ready hp hi
    exact ⟨_, hstep, rfl, hclosed, htrace, rfl, rfl⟩
  · exact session_step_of_left

/-- Settles O59: a descriptor the front end builds has a payload, and the length check of R190 bounds it. -/
theorem presentedLineFitsItsFrame : Obligations.PresentedLineFitsItsFrame := by
  intro F P line d h
  obtain ⟨k, ws, hbuild⟩ := readLine_eq_present h
  obtain ⟨hpayload, hshort⟩ := buildDescriptor_framed_ok hbuild
  obtain ⟨bytes, hbytes⟩ := payload_of_hasPayload P hpayload
  exact ⟨_, encodeFrame_of_not_tooLong (not_animate_legacy_of_framed d) hbytes (Nat.not_lt.2 (hshort bytes hbytes))⟩

/-- Settles O60: the loop's step phase by phase; a command is taken by an idle and open block alone. -/
theorem rejectedLineLeavesTheBlock : Obligations.RejectedLineLeavesTheBlock := by
  refine fun F w ready => ⟨?_, ?_, ?_, ?_, ?_, ?_⟩
  · intro hp hlines
    rw [session_step_of_reading hp, readNext_of_no_line hlines]
  · intro line rest e hp hlines hline
    rw [session_step_of_reading hp, readNext_of_rejected hlines hline, hp]
  · intro line rest d hp hlines hline
    rw [session_step_of_reading hp, readNext_of_present hlines hline]
  · intro d hp hinv hi
    obtain ⟨t, hstep, hemits⟩ := session_presenting_waits F ready hp hinv hi
    exact ⟨_, hstep, rfl, rfl, rfl, hemits⟩
  · intro d hp hi
    obtain ⟨t, u, hstep, haccept, hblock, htrace⟩ := session_presenting_taken F ready hp hi
    exact ⟨_, t, hstep, haccept, hblock, htrace, rfl, rfl, rfl⟩
  · intro hp hinv
    obtain ⟨t, hstep, hemits⟩ := session_draining F ready hp hinv
    exact ⟨_, hstep, rfl, rfl, rfl, hemits⟩

/-- Settles O54: each name is compared with the two names that have a code of their own. -/
theorem nameCodesFallBackToZero : Obligations.NameCodesFallBackToZero := by
  intro F name hnames n
  have hfont := fontCode_eq F name (n := n) rfl
  refine ⟨fun hibm => ?_, fun hpro => ?_, fun hibm hpro => ?_, ?_, ?_, kindCode_other⟩
  · rw [hfont, if_pos hibm]
  · rw [hfont, if_neg (by rw [hpro]; decide), if_pos hpro]
  · rw [hfont, if_neg hibm, if_neg hpro]
  · rintro rfl
    exact kindCode_blink F
  · rintro rfl
    exact kindCode_slide hnames

/-- Settles O56: the byte of a numeral up to 255 has its value, since the value is below 256. -/
theorem numericArgumentIsNeverReduced : Obligations.NumericArgumentIsNeverReduced :=
  fun _ _ h => ⟨fun hn => ⟨_, numericArg_of_le h hn, lengthByte_toNat hn⟩, numericArg_of_gt h⟩

end Sys2Proof.Machine
end

section
/-! SUPPORT. The causes of an error past the opcode and the profile: the operand codes that are rejected, and the rows
whose payload can be too long. -/

namespace Sys2Proof.Machine

/-! ### BAD_OPERAND -/

/-- R112, R114: the payload function rejects the font codes and the kinds above 2. -/
theorem payload_badOperand (P : Params) {d : Descriptor} (h : (d.op = 3 ∨ d.op = 5) ∧ 2 < d.a1.toNat) :
    payload P d = .error .badOperand := by
  obtain ⟨hfont | hanimate, hcode⟩ := h
  · simp [payload, hfont, hcode]
  · rw [← descriptorPayload_animate_framed P hanimate, descriptorPayload_badKind_framed P hanimate hcode]

theorem encodeFrame_badOperand {P : Params} {p : Profile} {d : Descriptor} (h5 : ¬ (d.op = 5 ∧ p = .legacy))
    (h : (d.op = 3 ∨ d.op = 5) ∧ 2 < d.a1.toNat) : encodeFrame P d p = .error .badOperand := by
  rw [encodeFrame_eq_frameResult P h5, payload_badOperand P h, frameResult_error]

/-- The first and the third check of R212 are all that the payload function asks. -/
theorem hasPayload_of_checks {d : Descriptor} (hop : ¬ (d.op = 0 ∨ 10 < d.op.toNat))
    (hcode : ¬ ((d.op = 3 ∨ d.op = 5) ∧ 2 < d.a1.toNat)) : HasPayload d :=
  ⟨hop, fun hrow => Nat.not_lt.1 fun hlarge => hcode ⟨hrow, hlarge⟩⟩

/-! ### TOO_LONG -/

theorem payload_length_writeText {P : Params} {d : Descriptor} {bytes : List Byte} (h : payload P d = .ok bytes)
    (hop : d.op = 2) : bytes.length = 2 + d.data.length := by
  have hrow : payload P d = .ok ([0x02, d.a0] ++ d.data) := by simp [payload, hop]
  obtain rfl := Except.ok.inj (hrow.symm.trans h)
  exact List.length_append

theorem payload_length_setRow {P : Params} {d : Descriptor} {bytes : List Byte} (h : payload P d = .ok bytes)
    (hop : d.op = 7) : bytes.length = 1 + d.data.length := by
  have hrow : payload P d = .ok ([0x07] ++ d.data) := by simp [payload, hop]
  obtain rfl := Except.ok.inj (hrow.symm.trans h)
  exact List.length_append

/-- R144, R145: only the two rows with data can be too long, and their data decides. -/
theorem payloadTooLong_iff_data {P : Params} (hP : P.wf) (p : Profile) {d : Descriptor} {bytes : List Byte}
    (h : payload P d = .ok bytes) :
    PayloadTooLong P p bytes.length ↔
      (d.op = 2 ∧ PayloadTooLong P p (2 + d.data.length)) ∨ (d.op = 7 ∧ PayloadTooLong P p (1 + d.data.length)) := by
  by_cases htext : d.op = 2
  · simp [payload_length_writeText h htext, htext]
  by_cases hrow : d.op = 7
  · simp [payload_length_setRow h hrow, hrow]
  have hshort : bytes.length ≤ 255 := (payload_length_le_six h htext hrow).trans (by decide)
  have hfits : ¬ PayloadTooLong P p bytes.length := (fits_iff_not_tooLong P p _).1 (fits_of_short hP p hshort)
  refine iff_of_false hfits ?_
  rintro (⟨hop, _⟩ | ⟨hop, _⟩)
  · exact htext hop
  · exact hrow hop

/-! ### The code that an ACCEPT leaves -/

theorem takeResult_err_of_error (s : State) {r : Except ErrCode (List Byte)} {e : ErrCode} (h : r = .error e) :
    (s.takeResult r).err = e.code := by
  rw [h]
  rfl

theorem takeResult_err_of_ok (s : State) {r : Except ErrCode (List Byte)} {frame : List Byte} (h : r = .ok frame) :
    (s.takeResult r).err = errNone := by
  rw [h]
  rfl

end Sys2Proof.Machine
end

section
/-! SUPPORT. The statements of 60_exceptions.md. -/

namespace Sys2Proof.Machine

open Host (Outcome)

/-- Settles O12: the encode function makes its checks in the order of R212, and a descriptor that passes the first three
has a payload, whose length alone is left to check. -/
theorem errorCodesAndTheirPriority : Obligations.ErrorCodesAndTheirPriority := by
  intro s d hP hs
  refine ⟨_, presentCommand_of_idle hs d, fun hop => ?badOpcode, fun ⟨_, hprofile⟩ => ?wrongProfile,
    fun ⟨_, hprofile, hcode⟩ => ?badOperand, fun ⟨hop, hprofile, hcode, hlong⟩ => ?tooLong,
    fun ⟨hop, hprofile, hcode, hshort⟩ => ?none⟩
  case badOpcode => exact takeResult_err_of_error s (encodeFrame_badOpcode s.params s.profile hop)
  case wrongProfile =>
    obtain ⟨hanimate, hlegacy⟩ := hprofile
    exact takeResult_err_of_error s (hlegacy ▸ encodeFrame_animate_legacy s.params hanimate)
  case badOperand => exact takeResult_err_of_error s (encodeFrame_badOperand hprofile hcode)
  all_goals obtain ⟨bytes, hbytes⟩ := payload_of_hasPayload s.params (hasPayload_of_checks hop hcode)
  case tooLong =>
    have hlen := (payloadTooLong_iff_data hP s.profile hbytes).2 hlong
    exact takeResult_err_of_error s (encodeFrame_of_tooLong hprofile hbytes hlen)
  case none =>
    have hlen := mt (payloadTooLong_iff_data hP s.profile hbytes).1 hshort
    exact takeResult_err_of_ok s (encodeFrame_of_not_tooLong hprofile hbytes hlen)

/-- Settles O13: the block takes the error, which writes `ERR` alone, so it is idle and open as before. -/
theorem errorOutcomeIsPrecise : Obligations.ErrorOutcomeIsPrecise := by
  intro s d e hs he
  have haccept : presentCommand d s = .next (s.takeError e) := by
    rw [presentCommand_of_idle hs, he]
    rfl
  refine ⟨haccept, fun t ht => ?_⟩
  obtain rfl := Outcome.next.inj (haccept.symm.trans ht)
  exact ⟨(cmdReady_iff _).2 hs, rfl, rfl, rfl, rfl, rfl, rfl⟩

end Sys2Proof.Machine
end

section
/-! SUPPORT. The block that a reset leaves, and the statement of 70_reset_and_hazards.md. -/

namespace Sys2Proof.Machine

theorem idleOpen_takeReset (s : State) : IdleOpen s.takeReset := ⟨takeReset_busy s, takeReset_closed s⟩

/-- R241: no bit of `STATUS` is set. -/
theorem takeReset_statusByte (s : State) : s.takeReset.statusByte = 0 :=
  BitVec.eq_of_getLsbD_eq fun k _ => by simp [statusByte_getLsbD, errNone]

/-- Settles O28: a reset step is `takeReset`, which overwrites every field of the block and none of the record; its
block is idle and open, hence the ready signals. -/
theorem resetStepFromEveryState : Obligations.ResetStepFromEveryState := by
  intro s hr
  have hidle := idleOpen_takeReset s
  obtain ⟨hcmd, hclose, _, hwrite, hvalid, _⟩ := readyAndValidSignals s.takeReset
  exact ⟨s.takeReset, step_of_reset hr, rfl, hidle.1, hidle.2, rfl, rfl, rfl, rfl, cfgByte_toNat _,
    takeReset_statusByte s, hcmd.2 hidle, hclose.2 hidle, hvalid.trans hidle.1, fun a v => (hwrite a v).2 hidle,
    rfl, rfl, rfl, rfl⟩

end Sys2Proof.Machine
end
